-- ==== Sys2Proof/Word.lean ====
section
/-! DEFINITION. The widths of the block: adapter bytes, shift words and single bits (spec/00_scope.md R7, R8). -/

namespace Sys2Proof

/-- One adapter byte, and every 8-bit value of the block (R7 `ADAPTER_WIDTH`). -/
abbrev Byte := BitVec 8

/-- One value of the 16-bit shift chain (R7 `CHAIN_WIDTH`). -/
abbrev Word := BitVec 16

/-- One line level. -/
abbrev Bit := BitVec 1

end Sys2Proof
end

