-- ==== Sys2Proof/Config.lean ====
section
/-! DEFINITION. What is fixed for one machine: the constants of spec/00_scope.md R7 and the parameters R7 leaves OPEN
(spec/92_eei_decisions.md D3, D11, D16). The parameters stand in a record that State carries and no step changes
(assumption log 4), so that a claim about every state is a claim about every choice of them. -/

namespace Sys2Proof

/-- `TEXT_LIMIT`: 16 characters (R7). -/
def textLimit : Nat := 16

/-- `SIDE_WORD`: the word every side-channel frame shifts (R7, R106). -/
def sideWord : Byte := 0x00

/-- `CLEAR_CMD`: the clear-display instruction (R7, R98). -/
def clearCmd : Byte := 0x01

/-- `LINE1_ADDR_CMD`: DDRAM address 0x00 (R7, R35). -/
def line1AddrCmd : Byte := 0x80

/-- `LINE2_ADDR_CMD` = 0x80 | 0x40: DDRAM address 0x40 (R7, R35). -/
def line2AddrCmd : Byte := 0x80 ||| 0x40

/-- `TEXT_POLICY`: what becomes of a text over the limit (R7, R126). -/
inductive TextPolicy where
  | reject
  | truncate
  | unlimited
  deriving DecidableEq, Repr

/-- `dataHiPos`: the chain outputs that carry the data bits 5, 6 and 7 (R52). Fin 8 keeps each in the lower register,
so none meets RS, RW, E or D0..D4 (R53). -/
structure DataHiPos where
  d5 : Fin 8
  d6 : Fin 8
  d7 : Fin 8
  deriving DecidableEq, Repr

/-- The parameters of one machine (R7, R30). -/
structure Params where
  dataHi       : DataHiPos
  textPolicy   : TextPolicy
  seedEntry    : Byte
  seedDisplay  : Byte
  seedShift    : Byte
  seedFunction : Byte
  deriving DecidableEq, Repr

/-- The defaults of R7, which every test vector of the spec uses. -/
def Params.default : Params where
  dataHi       := ⟨5, 6, 7⟩
  textPolicy   := .reject
  seedEntry    := 0x06
  seedDisplay  := 0x0C
  seedShift    := 0x10
  seedFunction := 0x38

end Sys2Proof
end

