-- ==== Sys2Proof/Syntax.lean ====
section
/-! DEFINITION. The operations: one constructor for each row of spec/opcode_table.json, and what the host hands the
core (spec/30_encoding.md R55 to R60). -/

namespace Sys2Proof

/-- A flag control field (R58): keep the flag, clear it to 0, set it to 1. The fourth value of its two bits, 01, is
reserved and is no value here. -/
inductive Ctl where
  | keep
  | clear
  | set
  deriving DecidableEq, Repr

/-- The instructions. The first sixteen are the command words of R57, the last nine the LCD transfer classes of R55,
whose words are the ten lines RS RW D7..D0 (R54). -/
inductive Instr where
  /-- R72: shift out and latch an 8-bit word. -/
  | shiftOut8 (v : Byte)
  /-- R73: shift out and latch a 16-bit word. -/
  | shiftOut16 (v : Word)
  /-- R85: one LCD bus write cycle; rs 0 is INSTR, 1 is DATA. -/
  | busWrite (rs : Bit) (b : Byte)
  /-- R108: drive CLR_N. -/
  | srClear (level : Bit)
  /-- R109: drive OE_N. -/
  | srOe (level : Bit)
  /-- R110: switch the backlight. -/
  | backlight (on : Bit)
  /-- R111: switch the backlight on, for a count of seconds, or without end for 0. -/
  | backlightFor (seconds : Nat)
  /-- R116: Uninitialized to Configured. -/
  | configure
  /-- R118: Configured to Active, with or without the entry-mode write. -/
  | init (withEntry : Bit)
  /-- R119: one clear-display write. -/
  | clearDisplay
  /-- R125: write a text to a line; the text is the out-of-band operand T of R60. -/
  | writeText (line : Nat) (text : List Byte)
  /-- R121: the flags ID and S of REG_ENTRY. -/
  | setEntryMode (id s : Ctl)
  /-- R122: the flags D, C and B of REG_DISPLAY. -/
  | setDisplay (d c b : Ctl)
  /-- R123: the flags SC and RL of REG_SHIFT. -/
  | setShift (sc rl : Ctl)
  /-- R124: the flags DL, N and F of REG_FUNCTION. -/
  | setFunction (dl n f : Ctl)
  /-- R128: the terminal transition. -/
  | sessionEnd
  /-- R98: 00000001. -/
  | lcdClearDisplay
  /-- R99: 000001 ID S. -/
  | lcdEntryModeSet (id s : Bit)
  /-- R100: 00001 D C B. -/
  | lcdDisplayControl (d c b : Bit)
  /-- R101 and R55: 0001 SC RL xx; the block's own composite operations send xx = 00 (assumption log 7). -/
  | lcdCursorDisplayShift (sc rl : Bit) (low : BitVec 2)
  /-- R102 and R55: 001 DL N F xx; the block's own composite operations send xx = 00 (assumption log 7). -/
  | lcdFunctionSet (dl n f : Bit) (low : BitVec 2)
  /-- R103: 1 AAAAAAA. -/
  | lcdSetDdramAddress (a : BitVec 7)
  /-- R104: a data transfer, RS = 1. -/
  | lcdWriteData (d : Byte)
  /-- R105 and R55: 0000001 x. -/
  | lcdReturnHome (low : Bit)
  /-- R105 and R55: 01 AAAAAA. -/
  | lcdSetCgramAddress (a : BitVec 6)
  deriving DecidableEq, Repr

/-- What the host hands the core in one issue: a command word with its text (R56, R60), or an LCD transfer word for the
write sequencer to put on the bus (assumption log 6). -/
inductive Request where
  | command (cw : BitVec 32) (text : List Byte)
  | lcd (word : BitVec 10)
  deriving DecidableEq, Repr

/-- What the host does to the core while a run lasts (R152). -/
inductive Issue where
  /-- It issues an operation. `tooEarly` marks one issued while the operation before it was in progress, the host breach
  of R140 (assumption log 13). -/
  | operation (request : Request) (tooEarly : Bool)
  /-- It opens the adapter once more (R149). -/
  | openAdapter
  deriving DecidableEq, Repr

end Sys2Proof
end

