-- ==== Sys2Proof/WellFormed.lean ====
section
/-! DEFINITION. What the encodings admit (spec/30_encoding.md R57 to R59) and what the parameters must meet (R53,
spec/10_state.md R17 to R21). -/

namespace Sys2Proof

/-- An instruction is well formed when every operand fits the field its encoding gives it. Only the two operands that
are counts can fail to: the duration has 24 bits and the line number 8 (R59). A bad line NUMBER is well formed: it is a
caller error, not an illegal encoding (R59, R135). -/
def Instr.wellFormed : Instr → Bool
  | .shiftOut8 _ => true
  | .shiftOut16 _ => true
  | .busWrite _ _ => true
  | .srClear _ => true
  | .srOe _ => true
  | .backlight _ => true
  | .backlightFor seconds => decide (seconds < 2 ^ 24)
  | .configure => true
  | .init _ => true
  | .clearDisplay => true
  | .writeText line _ => decide (line < 2 ^ 8)
  | .setEntryMode _ _ => true
  | .setDisplay _ _ _ => true
  | .setShift _ _ => true
  | .setFunction _ _ _ => true
  | .sessionEnd => true
  | .lcdClearDisplay => true
  | .lcdEntryModeSet _ _ => true
  | .lcdDisplayControl _ _ _ => true
  | .lcdCursorDisplayShift _ _ _ => true
  | .lcdFunctionSet _ _ _ _ => true
  | .lcdSetDdramAddress _ => true
  | .lcdWriteData _ => true
  | .lcdReturnHome _ => true
  | .lcdSetCgramAddress _ => true

/-- R53: the three positions are distinct (that each is in 0..7 is in the type). -/
def DataHiPos.distinct (p : DataHiPos) : Bool :=
  p.d5 != p.d6 && p.d5 != p.d7 && p.d6 != p.d7

/-- R18: the bits of REG_ENTRY that no operation changes. -/
def entryFixed (r : Byte) : Bool := r &&& 0xFC == 0x04

/-- R19: the bits of REG_DISPLAY that no operation changes. -/
def displayFixed (r : Byte) : Bool := r &&& 0xF8 == 0x08

/-- R20: the bits of REG_SHIFT that no operation changes. -/
def shiftFixed (r : Byte) : Bool := r &&& 0xF3 == 0x10

/-- R21: the bits of REG_FUNCTION that no operation changes. -/
def functionFixed (r : Byte) : Bool := r &&& 0xE3 == 0x20

/-- What spec/92_eei_decisions.md asks of the OPEN parameters: three distinct positions (D3), and seeds with their
register's fixed bits (D11). -/
def Params.wellFormed (p : Params) : Bool :=
  p.dataHi.distinct && entryFixed p.seedEntry && displayFixed p.seedDisplay && shiftFixed p.seedShift
    && functionFixed p.seedFunction

end Sys2Proof
end

