-- ==== Sys2Proof/Decode.lean ====
section
/-! DEFINITION. The decoder of command words and LCD transfer words, total, rejecting by name, and after it the encoder
(spec/30_encoding.md R54 to R61 and spec/opcode_table.json). -/

namespace Sys2Proof

/-- Why a request is no instruction. The core refuses each of them as ILLEGAL_COMMAND (R61, R139). -/
inductive Reject where
  /-- R61 (a): OP is none of the 15 values of R57. -/
  | reservedOpcode (op : Byte)
  /-- R61 (b): a bit that R57 requires to be 0 is 1. -/
  | mustBeZero
  /-- R61 (c): a ctl field is 01. -/
  | reservedCtl
  /-- R55, last row: RS = 0 and D = 00000000 is no LCD instruction. -/
  | noLcdInstruction
  /-- R55, R105: RW = 1 is a read, which is no class the block has. -/
  | lcdRead
  deriving DecidableEq, Repr

/-- The two bits of a ctl field (R58). -/
def Ctl.bits : Ctl → BitVec 2
  | .keep => 0b00
  | .clear => 0b10
  | .set => 0b11

/-- The ctl value of two bits; 01 is reserved (R58). -/
def Ctl.ofBits (c : BitVec 2) : Option Ctl :=
  if c = 0b00 then some .keep
  else if c = 0b10 then some .clear
  else if c = 0b11 then some .set
  else none

/-- Goes on with `k` when the `n` bits from `lo` are all 0 (R57, R61 (b)). -/
def needZero (cw : BitVec 32) (lo n : Nat) (k : Except Reject Instr) : Except Reject Instr :=
  if cw.extractLsb' lo n = 0 then k else .error .mustBeZero

/-- Goes on with the ctl value at bits `lo+1:lo` (R58, R61 (c)). -/
def needCtl (cw : BitVec 32) (lo : Nat) (k : Ctl → Except Reject Instr) : Except Reject Instr :=
  match Ctl.ofBits (cw.extractLsb' lo 2) with
  | some c => k c
  | none => .error .reservedCtl

/-- R57: the instruction of a command word. The text goes to WRITE_TEXT alone (R56, R60); with any other word it is
ignored (assumption log 14). -/
def decodeCommand (cw : BitVec 32) (text : List Byte) : Except Reject Instr :=
  let op : Byte := cw.extractLsb' 24 8
  if op = 0x01 then
    needZero cw 17 7 <|
      if cw.extractLsb' 16 1 = 1 then .ok (.shiftOut16 (cw.extractLsb' 0 16))
      else needZero cw 8 8 (.ok (.shiftOut8 (cw.extractLsb' 0 8)))
  else if op = 0x02 then needZero cw 9 15 (.ok (.busWrite (cw.extractLsb' 8 1) (cw.extractLsb' 0 8)))
  else if op = 0x03 then needZero cw 1 23 (.ok (.srClear (cw.extractLsb' 0 1)))
  else if op = 0x04 then needZero cw 1 23 (.ok (.srOe (cw.extractLsb' 0 1)))
  else if op = 0x05 then needZero cw 1 23 (.ok (.backlight (cw.extractLsb' 0 1)))
  else if op = 0x06 then .ok (.backlightFor (cw.extractLsb' 0 24).toNat)
  else if op = 0x10 then needZero cw 0 24 (.ok .configure)
  else if op = 0x11 then needZero cw 1 23 (.ok (.init (cw.extractLsb' 0 1)))
  else if op = 0x12 then needZero cw 0 24 (.ok .clearDisplay)
  else if op = 0x13 then needZero cw 8 16 (.ok (.writeText (cw.extractLsb' 0 8).toNat text))
  else if op = 0x20 then
    needZero cw 4 20 <| needCtl cw 2 fun id => needCtl cw 0 fun s => .ok (.setEntryMode id s)
  else if op = 0x21 then
    needZero cw 6 18 <| needCtl cw 4 fun d => needCtl cw 2 fun c => needCtl cw 0 fun b => .ok (.setDisplay d c b)
  else if op = 0x22 then
    needZero cw 8 16 <| needZero cw 0 4 <| needCtl cw 6 fun sc => needCtl cw 4 fun rl => .ok (.setShift sc rl)
  else if op = 0x23 then
    needZero cw 10 14 <| needZero cw 0 4 <|
      needCtl cw 8 fun dl => needCtl cw 6 fun n => needCtl cw 4 fun f => .ok (.setFunction dl n f)
  else if op = 0x30 then needZero cw 0 24 (.ok .sessionEnd)
  else .error (.reservedOpcode op)

/-- R55: the class of an LCD transfer word RS RW D7..D0, by its highest set data bit where RS = 0. -/
def decodeLcd (w : BitVec 10) : Except Reject Instr :=
  if w.extractLsb' 8 1 = 1 then .error .lcdRead
  else if w.extractLsb' 9 1 = 1 then .ok (.lcdWriteData (w.extractLsb' 0 8))
  else if w.extractLsb' 7 1 = 1 then .ok (.lcdSetDdramAddress (w.extractLsb' 0 7))
  else if w.extractLsb' 6 1 = 1 then .ok (.lcdSetCgramAddress (w.extractLsb' 0 6))
  else if w.extractLsb' 5 1 = 1 then
    .ok (.lcdFunctionSet (w.extractLsb' 4 1) (w.extractLsb' 3 1) (w.extractLsb' 2 1) (w.extractLsb' 0 2))
  else if w.extractLsb' 4 1 = 1 then
    .ok (.lcdCursorDisplayShift (w.extractLsb' 3 1) (w.extractLsb' 2 1) (w.extractLsb' 0 2))
  else if w.extractLsb' 3 1 = 1 then
    .ok (.lcdDisplayControl (w.extractLsb' 2 1) (w.extractLsb' 1 1) (w.extractLsb' 0 1))
  else if w.extractLsb' 2 1 = 1 then .ok (.lcdEntryModeSet (w.extractLsb' 1 1) (w.extractLsb' 0 1))
  else if w.extractLsb' 1 1 = 1 then .ok (.lcdReturnHome (w.extractLsb' 0 1))
  else if w.extractLsb' 0 1 = 1 then .ok .lcdClearDisplay
  else .error .noLcdInstruction

/-- The instruction of a request. -/
def decode : Request → Except Reject Instr
  | .command cw text => decodeCommand cw text
  | .lcd w => decodeLcd w

/-- The request of an instruction, from the field layouts of R57, R58 and R55: the fields joined, the highest first. -/
def encode : Instr → Request
  | .shiftOut8 v => .command (0x01#8 ++ 0#7 ++ 0#1 ++ 0#8 ++ v) []
  | .shiftOut16 v => .command (0x01#8 ++ 0#7 ++ 1#1 ++ v) []
  | .busWrite rs b => .command (0x02#8 ++ 0#15 ++ rs ++ b) []
  | .srClear level => .command (0x03#8 ++ 0#23 ++ level) []
  | .srOe level => .command (0x04#8 ++ 0#23 ++ level) []
  | .backlight on => .command (0x05#8 ++ 0#23 ++ on) []
  | .backlightFor seconds => .command (0x06#8 ++ BitVec.ofNat 24 seconds) []
  | .configure => .command (0x10#8 ++ 0#24) []
  | .init withEntry => .command (0x11#8 ++ 0#23 ++ withEntry) []
  | .clearDisplay => .command (0x12#8 ++ 0#24) []
  | .writeText line text => .command (0x13#8 ++ 0#16 ++ BitVec.ofNat 8 line) text
  | .setEntryMode id s => .command (0x20#8 ++ 0#20 ++ id.bits ++ s.bits) []
  | .setDisplay d c b => .command (0x21#8 ++ 0#18 ++ d.bits ++ c.bits ++ b.bits) []
  | .setShift sc rl => .command (0x22#8 ++ 0#16 ++ sc.bits ++ rl.bits ++ 0#4) []
  | .setFunction dl n f => .command (0x23#8 ++ 0#14 ++ dl.bits ++ n.bits ++ f.bits ++ 0#4) []
  | .sessionEnd => .command (0x30#8 ++ 0#24) []
  | .lcdClearDisplay => .lcd 0b0000000001#10
  | .lcdEntryModeSet id s => .lcd (0b00000001#8 ++ id ++ s)
  | .lcdDisplayControl d c b => .lcd (0b0000001#7 ++ d ++ c ++ b)
  | .lcdCursorDisplayShift sc rl low => .lcd (0b000001#6 ++ sc ++ rl ++ low)
  | .lcdFunctionSet dl n f low => .lcd (0b00001#5 ++ dl ++ n ++ f ++ low)
  | .lcdSetDdramAddress a => .lcd (0b001#3 ++ a)
  | .lcdWriteData d => .lcd (0b10#2 ++ d)
  | .lcdReturnHome low => .lcd (0b000000001#9 ++ low)
  | .lcdSetCgramAddress a => .lcd (0b0001#4 ++ a)

/-- The request whose bits the opcode table numbers as `w`: a row of at most 16 bits is an LCD transfer word of ten
bits, every other row a command word. A short word with a bit above the ten is given as the command word of the same
bits, which is refused (its OP is 0). -/
def tableRequest (nbits w : Nat) : Request :=
  if nbits ≤ 16 ∧ w < 2 ^ 10 then .lcd (BitVec.ofNat 10 w) else .command (BitVec.ofNat 32 w) []

/-- What the decoder reads from a word of the opcode table; WRITE_TEXT gets the empty text. -/
def decodeTableWord (nbits w : Nat) : Option Instr :=
  match decode (tableRequest nbits w) with
  | .ok i => some i
  | .error _ => none

end Sys2Proof
end

