-- ==== Sys2Proof/Machine/Levels.lean ====
section
/-! DEFINITION. What the LCD's inputs see of the adapter's levels and the chain's outputs (spec/10_state.md R25,
spec/70_reset_and_hazards.md R154). -/

namespace Sys2Proof.Machine

/-- R25: the LCD input view of adapter levels `a` over outputs `q`; `none` while OE_N (bit 5) is 1. -/
def viewOf (a : Byte) (q : Word) : Option Word :=
  if a[5] then none else some q

/-- R154: at session start over the levels `a0` and the outputs `q` no pulse is in progress: the outputs are driven and E
is low. -/
def startsIdle (a0 : Byte) (q : Word) : Bool := !a0[5] && !q[10]

end Sys2Proof.Machine
end

