-- ==== Sys2Proof/Machine/State.lean ====
section
/-! DEFINITION. The state of the machine (spec/10_state.md), the reasons it stops, and its value at session start
(spec/70_reset_and_hazards.md R153 to R155). -/

namespace Sys2Proof.Machine

/-- R27: the session states. -/
inductive Session where
  | uninitialized
  | configured
  | active
  | failed
  | ended
  deriving DecidableEq, Repr

/-- R26: the hidden state of the LCD's enable input. -/
inductive Pulse where
  /-- E is low and no pulse is in progress. -/
  | idle
  /-- E rose while every other view bit was stable; `x` is the view with E cleared at that moment. -/
  | clean (x : Word)
  /-- A pulse is in progress, or E is high, and its content is unknown. -/
  | dirty
  deriving DecidableEq, Repr

/-- R28: the events of the observation. -/
inductive Event where
  /-- The LCD latched this value on a falling edge of E (R92). -/
  | transfer (rs rw : Bit) (d : Byte)
  /-- A transfer of unknown content may have been latched (R93, R95). -/
  | anyTransfer
  /-- A host sleep (R112). -/
  | wait (seconds : Nat)
  /-- One transmission of `n` bytes and whether it answered `ok` (R71). -/
  | tx (n : Nat) (ok : Bool)
  deriving DecidableEq, Repr

/-- R141: the reasons in FAULTS. -/
inductive FaultReason where
  /-- The LCD's view had E = 1 and RW = 1 (R96). -/
  | readContention
  deriving DecidableEq, Repr

/-- R139: why the model refuses a request. -/
inductive RefusalReason where
  /-- The command word is reserved or malformed (R61). -/
  | illegalCommand
  /-- The session state does not admit the operation (R115). -/
  | wrongState
  /-- The operation was issued while one was in progress (R140). -/
  | concurrentIssue
  /-- A second session was opened on the adapter of one that has not ended (R149; 93_implementation_defined.md I16 gives
  the treatment and no name: assumption log 19). -/
  | secondSession
  deriving DecidableEq, Repr

/-- R131: what a caller gets back. -/
inductive ReturnCode where
  | ok
  /-- Given by the host's open, never by an operation (R132). -/
  | adapterOpenFailed
  /-- Carries the adapter's diagnostic text, an opaque string. -/
  | transmissionFailed (text : List Byte)
  | badLine
  | textTooLong
  deriving DecidableEq, Repr

/-- What the transport does with one transmission (R6, R134): the draws of one `Transmit`. -/
inductive Answer where
  /-- Every byte is delivered. -/
  | ok
  /-- The first `delivered` bytes are delivered (all of them, if there are no more), the cached PINS hold `pins`
  afterwards (any value, R71) and the adapter says `text`. -/
  | fail (delivered : Nat) (pins : Byte) (text : List Byte)
  /-- The transmission never completes. The first `delivered` bytes are delivered (all of them, if there are no more):
  R134 gives no number, so it is a draw (assumption log 11). -/
  | never (delivered : Nat)
  deriving DecidableEq, Repr

/-- A sequence of draws without end, as plain data: the listed ones, then `rest` for ever. -/
structure Draws (α : Type) where
  listed : List α
  rest   : α
  deriving DecidableEq, Repr

/-- The machine. The first thirteen fields are the spec's (R11); `stuck` holds what R134 and R167 call stuck; `codes`
keeps the return codes that R97 and R167 observe; the last four are the model's own and hold what R30 calls draws,
configuration and program. -/
structure State where
  /-- PINS, the cached adapter byte (R12). -/
  pins        : Byte
  /-- REG_ENTRY (R18). -/
  regEntry    : Byte
  /-- REG_DISPLAY (R19). -/
  regDisplay  : Byte
  /-- REG_SHIFT (R20). -/
  regShift    : Byte
  /-- REG_FUNCTION (R21). -/
  regFunction : Byte
  /-- SESSION (R27). -/
  session     : Session
  /-- ADAPTER, the levels the adapter drives (R24). -/
  adapter     : Byte
  /-- SR, the shift stage (R22). -/
  sr          : Word
  /-- Q, the storage stage (R23). -/
  q           : Word
  /-- PULSE (R26). -/
  pulse       : Pulse
  /-- LOG, oldest event first (R28). -/
  log         : List Event
  /-- FAULTS (R29); a set, so no reason stands in it twice. -/
  faults      : List FaultReason
  /-- REFUSED (R29), with its reason: `none` is false. -/
  refused     : Option RefusalReason
  /-- The transport never answers the last transmission: there is no further step and no fault (R134, R167, `stuck` of
  spec/93_implementation_defined.md I4; assumption log 11). -/
  stuck       : Bool
  /-- The codes returned to the caller, oldest first (R130, R131; assumption log 15). -/
  codes       : List ReturnCode
  /-- The transport's coming answers (R134; assumption log 2). -/
  transport   : Draws Answer
  /-- The coming numbers of AnyTransfer events when floating inputs are driven again (R95; assumption log 3). -/
  floats      : Draws Nat
  /-- The parameters of the machine, which no step changes (R7, R30; assumption log 4). -/
  params      : Params
  /-- What the host has issued and the core has not started, oldest first (R31, R152; assumption log 5). -/
  pending     : List Issue
  deriving DecidableEq, Repr

/-- Why a step stops with a fault. -/
inductive Fault where
  /-- Raised by every step from a state whose FAULTS is not empty: the state is quiescent (R141). Safe: the spec gives
  it no further step. -/
  | sticky (reason : FaultReason)
  /-- Raised by every step from a stuck state: the core has no step (R134). It is no fault of the spec's (`stuck`,
  spec/93_implementation_defined.md I4) and the name is the model's (assumption log 11). Safe: the spec gives it no
  further step. -/
  | transportNeverAnswers
  deriving DecidableEq, Repr

/-- Why a step is refused. -/
inductive Refusal where
  /-- Raised by the dispatcher for an instruction that has no meaning yet. Safe: it stops where the hardware goes on. -/
  | notModelled (mnemonic : String)
  /-- Raised by every step from a state whose REFUSED mark is set: the model takes no further step (R139). Safe: the
  spec gives it no further step. -/
  | sticky (reason : RefusalReason)
  deriving DecidableEq, Repr

/-- R25: VIEW. -/
def State.view (s : State) : Option Word := viewOf s.adapter s.q

/-- R154: PULSE at session start, from the levels `a0` and the outputs `q`. -/
def startPulse (a0 : Byte) (q : Word) : Pulse :=
  if startsIdle a0 q then .idle else .dirty

/-- R33, R153, R154: a session start with parameters `p` over the downstream draws A0, SR and Q, with the draws that
stand ahead of it. -/
def State.start (p : Params) (a0 : Byte) (sr q : Word) (transport : Draws Answer) (floats : Draws Nat) : State where
  pins        := 0x00
  regEntry    := p.seedEntry
  regDisplay  := p.seedDisplay
  regShift    := p.seedShift
  regFunction := p.seedFunction
  session     := .uninitialized
  adapter     := a0
  sr          := sr
  q           := q
  pulse       := startPulse a0 q
  log         := []
  faults      := []
  refused     := none
  stuck       := false
  codes       := []
  transport   := transport
  floats      := floats
  params      := p
  pending     := []

/-- The machine right after reset, which is session start (R153): the default parameters (assumption log 4), the draws
A0 = 0, SR = 0, Q = 0 (assumption log 1), a transport that answers `ok` (assumption log 2) and no AnyTransfer from
floating inputs (assumption log 3). `State.start` is the same for every other draw. -/
def State.reset : State :=
  State.start Params.default 0x00 0x0000 0x0000 ⟨[], .ok⟩ ⟨[], 0⟩

end Sys2Proof.Machine
end

