-- ==== Sys2Proof/Machine/Flags.lean ====
section
/-! DEFINITION. The flag bits of the four cached LCD command registers (spec/10_state.md R18 to R21) and the one
computation that changes them (spec/30_encoding.md R58). The block has no condition codes (R32). -/

namespace Sys2Proof.Machine

/-- R58: `ApplyCtl(r, k, c)`. -/
def applyCtl (r : Byte) (k : Nat) : Ctl → Byte
  | .keep => r
  | .clear => r &&& ~~~(1#8 <<< k)
  | .set => (r &&& ~~~(1#8 <<< k)) ||| (1#8 <<< k)

/-- R121: ID is bit 1 and S is bit 0 of REG_ENTRY. -/
def entryWith (r : Byte) (id s : Ctl) : Byte := applyCtl (applyCtl r 1 id) 0 s

/-- R122: D is bit 2, C is bit 1 and B is bit 0 of REG_DISPLAY. -/
def displayWith (r : Byte) (d c b : Ctl) : Byte := applyCtl (applyCtl (applyCtl r 2 d) 1 c) 0 b

/-- R123: SC is bit 3 and RL is bit 2 of REG_SHIFT. -/
def shiftWith (r : Byte) (sc rl : Ctl) : Byte := applyCtl (applyCtl r 3 sc) 2 rl

/-- R124: DL is bit 4, N is bit 3 and F is bit 2 of REG_FUNCTION. -/
def functionWith (r : Byte) (dl n f : Ctl) : Byte := applyCtl (applyCtl (applyCtl r 4 dl) 3 n) 2 f

/-- R127: REG_DISPLAY with the flag D set, the others as they were. -/
def displayOn (r : Byte) : Byte := r ||| 0x04

end Sys2Proof.Machine
end

