-- ==== Sys2Proof/Machine/Operands.lean ====
section
/-! DEFINITION. Bytes and words the operations build: the adapter byte's pins, the serial frame of a word, the data-pin
map and the LCD bus word (spec/30_encoding.md sections 1 and 2, spec/40_shift_loader.md section 1,
spec/41_lcd_write_sequencer.md section 1). -/

namespace Sys2Proof.Machine

/-! The pins of an adapter byte (R13, R50). -/

/-- `p` with SER (bit 0) at `d`. -/
def withSer (p : Byte) (d : Bool) : Byte := (p &&& ~~~0x01#8) ||| (if d then 0x01 else 0x00)

/-- `p` with RCLK (bit 2) low. -/
def rclkLow (p : Byte) : Byte := p &&& ~~~0x04#8

/-- `p` with RCLK (bit 2) high. -/
def rclkHigh (p : Byte) : Byte := p ||| 0x04

/-- `p` with SRCLK (bit 3) low. -/
def srclkLow (p : Byte) : Byte := p &&& ~~~0x08#8

/-- `p` with SRCLK (bit 3) high. -/
def srclkHigh (p : Byte) : Byte := p ||| 0x08

/-- `p` with CLR_N (bit 4) at `level` (R108). -/
def withClrN (p : Byte) (level : Bit) : Byte := (p &&& ~~~0x10#8) ||| (level.setWidth 8 <<< 4)

/-- `p` with OE_N (bit 5) at `level` (R109). -/
def withOeN (p : Byte) (level : Bit) : Byte := (p &&& ~~~0x20#8) ||| (level.setWidth 8 <<< 5)

/-- `p` with both backlight bits (6 and 7) at `on` (R110). -/
def withBacklight (p : Byte) (on : Bit) : Byte := (p &&& ~~~0xC0#8) ||| (if on = 1 then 0xC0 else 0x00)

/-! The serial frame (R65 to R70). -/

/-- The bits `n-1, …, 0` of a word, the most significant first (R37, R66). -/
def bitsDown {w : Nat} (v : BitVec w) : Nat → List Bool
  | 0 => []
  | n + 1 => v.getLsbD n :: bitsDown v n

/-- The four bytes of each bit, and the pins after the last of them (R66, sub-steps (1) to (4)). -/
def clockBits (p : Byte) : List Bool → List Byte × Byte
  | [] => ([], p)
  | d :: ds =>
    let p1 := srclkLow p
    let p2 := withSer p1 d
    let p3 := srclkHigh p2
    let rest := clockBits p3 ds
    (p1 :: p2 :: p3 :: p3 :: rest.1, rest.2)

/-- R65, R66: `Encode(p, v, w)`, the frame and the new pin state. Byte 0 is the preamble of R67, the last byte raises
RCLK. -/
def encodeFrame {w : Nat} (p : Byte) (v : BitVec w) : List Byte × Byte :=
  let p0 := rclkLow p
  let body := clockBits p0 (bitsDown v w)
  let last := rclkHigh body.2
  (p0 :: (body.1 ++ [last]), last)

/-! The shift word and the LCD's pins (R51, R52, R84). -/

/-- E at its place in the shift word (R51). -/
def eMask : Word := 0x0400

/-- `c` with E cleared. -/
def withoutE (c : Word) : Word := c &&& ~~~eMask

/-- E of a view. -/
def eOf (view : Word) : Bool := view[10]

/-- RW of a view. -/
def rwOf (view : Word) : Bool := view[9]

/-- `DATA_POS(k)` (R52). -/
def dataPos (dp : DataHiPos) : Nat → Nat
  | 5 => dp.d5.val
  | 6 => dp.d6.val
  | 7 => dp.d7.val
  | k => 11 + k

/-- The word with the bit `x` at `pos` and 0 elsewhere. -/
def bitAt (x : Bool) (pos : Nat) : Word := (if x then 1#16 else 0#16) <<< pos

/-- The byte with the bit `x` at `pos` and 0 elsewhere. -/
def byteBitAt (x : Bool) (pos : Nat) : Byte := (if x then 1#8 else 0#8) <<< pos

/-- R52: `Map(b)`. -/
def mapByte (dp : DataHiPos) (b : Byte) : Word :=
  [0, 1, 2, 3, 4, 5, 6, 7].foldr (fun k w => bitAt (b.getLsbD k) (dataPos dp k) ||| w) 0

/-- R52: `Unmap(q)`. -/
def unmapWord (dp : DataHiPos) (q : Word) : Byte :=
  [0, 1, 2, 3, 4, 5, 6, 7].foldr (fun k b => byteBitAt (q.getLsbD (dataPos dp k)) k ||| b) 0

/-- R84: `Word(rs, b)`; E and RW are 0 and no bit is set but RS and the eight data lines. With the default data-pin map
bits 4..0 are therefore 0. R51, R84 and decision D4 call them 0 for every map, while R53 and decision D3 let `dataHiPos`
put data lines there: for such a map `Map` is followed (DESIGN CHOICE, assumption log 21). -/
def busWord (dp : DataHiPos) (rs : Bit) (b : Byte) : Word := (rs.setWidth 16 <<< 8) ||| mapByte dp b

end Sys2Proof.Machine
end

