-- ==== Sys2Proof/Machine/Ops.lean ====
section
/-! DEFINITION. The shared operations: the named updates of the state, the errors, refusals and faults
(spec/60_exceptions.md), one byte of the downstream chain (spec/40_shift_loader.md section 4) with the LCD's input pins
(spec/41_lcd_write_sequencer.md section 3), one transmission (R71), the bus write cycle (R85), the side-channel frame
(R106) and admission (R115). -/

namespace Sys2Proof.Machine

/-! Named updates. -/

namespace State

def setPins (p : Byte) (s : State) : State := { s with pins := p }
def setEntry (r : Byte) (s : State) : State := { s with regEntry := r }
def setDisplay (r : Byte) (s : State) : State := { s with regDisplay := r }
def setShift (r : Byte) (s : State) : State := { s with regShift := r }
def setFunction (r : Byte) (s : State) : State := { s with regFunction := r }
def setSession (x : Session) (s : State) : State := { s with session := x }
def setChain (a : Byte) (sr q : Word) (s : State) : State := { s with adapter := a, sr := sr, q := q }
def setPulse (x : Pulse) (s : State) : State := { s with pulse := x }
def setTransport (d : Draws Answer) (s : State) : State := { s with transport := d }
def setFloats (d : Draws Nat) (s : State) : State := { s with floats := d }
def setPending (l : List Issue) (s : State) : State := { s with pending := l }

/-- `log(e)` for each of `es`, in order (R9, R28). -/
def logEvents (es : List Event) (s : State) : State := { s with log := s.log ++ es }

/-- The caller gets `c` back (R130). -/
def returnCode (c : ReturnCode) (s : State) : State := { s with codes := s.codes ++ [c] }

/-- `fault reason`: the reason joins the sticky set (R9, R141). -/
def addFault (r : FaultReason) (s : State) : State :=
  { s with faults := if r ∈ s.faults then s.faults else s.faults ++ [r] }

/-- The transport never answers: no further step and no fault (R134). -/
def setStuck (s : State) : State := { s with stuck := true }

/-- `refuse reason`: the sticky mark is set and nothing else changes (R9, R139). -/
def refuse (r : RefusalReason) (s : State) : State := { s with refused := some r }

end State

/-- The next draw. -/
def Draws.head {α : Type} (d : Draws α) : α :=
  match d.listed with
  | [] => d.rest
  | x :: _ => x

/-- The draws after the next one. -/
def Draws.tail {α : Type} (d : Draws α) : Draws α :=
  match d.listed with
  | [] => d
  | _ :: xs => { d with listed := xs }

/-! How an operation goes: on, or to an end. -/

/-- Where an operation stands after one of its parts. -/
inductive Run where
  /-- The operation goes on from `s`. -/
  | go (s : State)
  /-- The operation goes no further than `s`: it returned an error code (R130), a sticky fault was recorded (R141), or
  the transport never answers and `s` is stuck (R134). -/
  | ended (s : State)
  deriving DecidableEq, Repr

/-- The next part of an operation, taken only if it goes on. -/
def Run.andThen (r : Run) (k : State → Run) : Run :=
  match r with
  | .go s => k s
  | .ended s => .ended s

/-- What the caller sees when the operation's last part is done: `OK` if it went through (R131). A stuck operation
returns nothing; its frames that answered `ok`, and the silent one's delivered bytes, stand in the LOG, ADAPTER, SR and Q
that R167 observes. -/
def Run.outcome : Run → Host.Outcome State Fault Refusal
  | .go s => .next (s.returnCode .ok)
  | .ended s => .next s

/-- `raise Error(code)` (R9, R130): the operation ends and the caller gets the code. No state is saved and there is no
handler (R143). -/
def raiseError (c : ReturnCode) (s : State) : Run := .ended (s.returnCode c)

/-- R131: the numbers of the codes. -/
def ReturnCode.number : ReturnCode → Nat
  | .ok => 0
  | .adapterOpenFailed => 1
  | .transmissionFailed _ => 2
  | .badLine => 3
  | .textTooLong => 4

/-! The LCD's input pins (R90 to R96). -/

/-- R92, R93: what the LCD latches when E falls to the view `c`. -/
def latched (dp : DataHiPos) (pulse : Pulse) (c : Word) : Event :=
  match pulse with
  | .clean x =>
    if withoutE c = x then .transfer (x.extractLsb' 8 1) (x.extractLsb' 9 1) (unmapWord dp x) else .anyTransfer
  | .idle => .anyTransfer
  | .dirty => .anyTransfer

/-- R96: E = 1 and RW = 1 at once. -/
def contended (c : Word) : Bool := eOf c && rwOf c

/-- R90, both views driven: E rises (R91), the other lines change while E is high, E falls (R92, R93). -/
def lcdEdge (a c : Word) (s : State) : State :=
  if !eOf a && eOf c then s.setPulse (if withoutE a = withoutE c then .clean (withoutE c) else .dirty)
  else if eOf a && eOf c && withoutE a != withoutE c then s.setPulse .dirty
  else if eOf a && !eOf c then (s.logEvents [latched s.params.dataHi s.pulse c]).setPulse .idle
  else s

/-- R90: `LcdStep(v0, v1)`. Its third case, floating inputs driven again, records no fault; a contended view that stays is
recorded at the next byte, by the fourth. -/
def lcdStep (v0 v1 : Option Word) (s : State) : State :=
  match v0, v1 with
  | none, none => s
  | some _, none => s.setPulse .dirty
  | none, some c =>
    ((s.setFloats s.floats.tail).logEvents (List.replicate s.floats.head .anyTransfer)).setPulse
      (if eOf c then .dirty else .idle)
  | some a, some c => lcdEdge a c (if contended c then s.addFault .readContention else s)

/-! The shift chain (R74 to R79). -/

/-- R76: one shift toward bit 15, `d` entering bit 0. -/
def shiftIn (sr : Word) (d : Bool) : Word := (sr <<< 1) ||| (if d then 1 else 0)

/-- R75: the shift stage while the byte `b` is applied: held at 0 while CLR_N is 0. -/
def clearStage (b : Byte) (sr : Word) : Word := if b[4] then sr else 0

/-- R75, R76: the shift stage after `b`, from the adapter level `a`. -/
def nextSr (a b : Byte) (sr : Word) : Word :=
  if !a[3] && b[3] && b[4] then shiftIn (clearStage b sr) (b[0]) else clearStage b sr

/-- R77, R78: the storage stage after `b`: on a rising edge of RCLK it takes the shift stage as it was before this
byte's shift. -/
def nextQ (a b : Byte) (sr q : Word) : Word :=
  if !a[2] && b[2] then clearStage b sr else q

/-- R74: `Apply(b)`. -/
def applyByte (b : Byte) (s : State) : State :=
  lcdStep s.view (viewOf b (nextQ s.adapter b s.sr s.q))
    (s.setChain b (nextSr s.adapter b s.sr) (nextQ s.adapter b s.sr s.q))

/-- The bytes of one transmission, in order. A byte that records a sticky fault is the last one that has an effect
(R141, R142; assumption log 8). -/
def deliver : List Byte → State → State
  | [], s => s
  | b :: bs, s =>
    match (applyByte b s).faults with
    | [] => deliver bs (applyByte b s)
    | _ :: _ => applyByte b s

/-! One transmission (R71, R133, R134). -/

/-- R71, R133: what a failed transmission of `n` bytes leaves, after its delivered bytes: the event, unknown PINS, the
session Failed, and the code with the adapter's text. -/
def transmissionFailed (n : Nat) (pins : Byte) (text : List Byte) (s : State) : Run :=
  raiseError (.transmissionFailed text) (((s.logEvents [.tx n false]).setPins pins).setSession .failed)

/-- Goes on with `k` unless a sticky fault stands (R141). -/
def unlessFaulted (s : State) (k : State → Run) : Run :=
  match s.faults with
  | [] => k s
  | _ :: _ => .ended s

/-- R71: `SendFrame(v, w)`. Where the transport never answers, the delivered bytes stand (their number a draw, assumption
log 11), and what R71 does after the answer is not done: no Tx event, PINS as before the frame. -/
def sendFrame {w : Nat} (v : BitVec w) (s : State) : Run :=
  let f := encodeFrame s.pins v
  let s1 := s.setTransport s.transport.tail
  match s.transport.head with
  | .ok => unlessFaulted (deliver f.1 s1) fun s2 => .go ((s2.logEvents [.tx f.1.length true]).setPins f.2)
  | .fail m pins text => unlessFaulted (deliver (f.1.take m) s1) (transmissionFailed f.1.length pins text)
  | .never m => unlessFaulted (deliver (f.1.take m) s1) fun s2 => .ended s2.setStuck

/-- R106: `SideFrame()`. -/
def sideFrame (s : State) : Run := sendFrame sideWord s

/-- R85, R86: the three phases of one bus write cycle. -/
def busCycle (rs : Bit) (b : Byte) (s : State) : Run :=
  let w := busWord s.params.dataHi rs b
  ((sendFrame w s).andThen (sendFrame (w ||| eMask))).andThen (sendFrame (w &&& ~~~eMask))

/-! Admission and the sticky marks (R115, R139, R141, R142). -/

/-- The rows of the admission table (R115). -/
inductive AdmissionRow where
  /-- SHIFT_OUT8, SHIFT_OUT16, BUS_WRITE; the LCD transfer words too, which are bus writes (assumption log 6). -/
  | bus
  /-- SR_CLEAR, SR_OE, BACKLIGHT, BACKLIGHT_FOR. -/
  | side
  | configure
  | init
  /-- CLEAR_DISPLAY, WRITE_TEXT and the SET_ operations. -/
  | lcdCommand
  | sessionEnd
  deriving DecidableEq, Repr

/-- The admission table (R115). -/
def admits : AdmissionRow → Session → Bool
  | .bus, .configured => true
  | .bus, .active => true
  | .side, .uninitialized => true
  | .side, .configured => true
  | .side, .active => true
  | .configure, .uninitialized => true
  | .init, .configured => true
  | .lcdCommand, .active => true
  | .sessionEnd, .uninitialized => true
  | .sessionEnd, .configured => true
  | .sessionEnd, .active => true
  | .sessionEnd, .failed => true
  | _, _ => false

/-- From a state with a sticky fault or the REFUSED mark, and from a stuck one, there is no step (R139, R141, R134);
otherwise `k`. -/
def whenLive (s : State) (k : Host.Outcome State Fault Refusal) : Host.Outcome State Fault Refusal :=
  match s.faults, s.refused, s.stuck with
  | r :: _, _, _ => .fault (.sticky r)
  | [], some r, _ => .refused (.sticky r)
  | [], none, true => .fault .transportNeverAnswers
  | [], none, false => k

/-- One operation: it runs if its row admits the session's state and is refused WRONG_STATE otherwise (R115, R139). -/
def operate (row : AdmissionRow) (body : State → Run) (s : State) : Host.Outcome State Fault Refusal :=
  whenLive s (if admits row s.session then (body s).outcome else .next (s.refuse .wrongState))

end Sys2Proof.Machine
end

