-- ==== Sys2Proof/Machine/SideChannel.lean ====
section
/-! DEFINITION. The side channels: shift-register control and backlight (spec/42_side_channels.md). -/

namespace Sys2Proof.Machine

/-- R108: CLR_N takes the level in PINS, then one side-channel frame. -/
def srClear (level : Bit) (s : State) : Run := sideFrame (s.setPins (withClrN s.pins level))

/-- R109: OE_N takes the level in PINS, then one side-channel frame. -/
def srOe (level : Bit) (s : State) : Run := sideFrame (s.setPins (withOeN s.pins level))

/-- R110: both backlight bits take `on` in PINS, then one side-channel frame. -/
def backlight (on : Bit) (s : State) : Run := sideFrame (s.setPins (withBacklight s.pins on))

/-- R111, R112: the backlight on; for a duration other than 0, the host's sleep and the backlight off. -/
def backlightFor (seconds : Nat) (s : State) : Run :=
  (backlight 1 s).andThen fun s1 =>
    if seconds = 0 then .go s1 else backlight 0 (s1.logEvents [.wait seconds])

/-- R108: SR_CLEAR. -/
def execSrClear (level : Bit) (s : State) : Host.Outcome State Fault Refusal := operate .side (srClear level) s

/-- R109: SR_OE. -/
def execSrOe (level : Bit) (s : State) : Host.Outcome State Fault Refusal := operate .side (srOe level) s

/-- R110: BACKLIGHT. -/
def execBacklight (on : Bit) (s : State) : Host.Outcome State Fault Refusal := operate .side (backlight on) s

/-- R111: BACKLIGHT_FOR. -/
def execBacklightFor (seconds : Nat) (s : State) : Host.Outcome State Fault Refusal :=
  operate .side (backlightFor seconds) s

end Sys2Proof.Machine
end

