-- ==== Sys2Proof/Machine/LcdCommand.lean ====
section
/-! DEFINITION. The LCD command state machine: session bring-up, the LCD commands and the session's end
(spec/43_lcd_command_state_machine.md). -/

namespace Sys2Proof.Machine

/-- R116: clear low, outputs enabled, clear released, then Configured. -/
def configureSession (s : State) : Run :=
  (((srClear 0 s).andThen (srOe 0)).andThen (srClear 1)).andThen fun t => .go (t.setSession .configured)

/-- R118: clear display, function set, display control, and the entry mode if asked for; then Active. The registers'
current values are sent. -/
def initSession (withEntry : Bit) (s : State) : Run :=
  (((busCycle 0 clearCmd s).andThen fun t => busCycle 0 t.regFunction t).andThen fun t =>
      busCycle 0 t.regDisplay t).andThen fun t =>
    (if withEntry = 1 then busCycle 0 t.regEntry t else .go t).andThen fun u => .go (u.setSession .active)

/-- R125: the characters, one data write each, in order. -/
def writeChars : List Byte → State → Run
  | [], s => .go s
  | c :: cs, s => (busCycle 1 c s).andThen (writeChars cs)

/-- R125, R127: the DDRAM address of the line, the characters, and display on. -/
def putText (line : Nat) (text : List Byte) (s : State) : Run :=
  ((busCycle 0 (if line = 1 then line1AddrCmd else line2AddrCmd) s).andThen (writeChars text)).andThen fun t =>
    busCycle 0 (displayOn t.regDisplay) (t.setDisplay (displayOn t.regDisplay))

/-- R125, R126, R135, R136: the line is checked first, then the length as TEXT_POLICY says, then the text is written. -/
def checkedText (line : Nat) (text : List Byte) (s : State) : Run :=
  if line ≠ 1 ∧ line ≠ 2 then raiseError .badLine s
  else if textLimit < text.length then
    match s.params.textPolicy with
    | .reject => raiseError .textTooLong s
    | .truncate => putText line (text.take textLimit) s
    | .unlimited => putText line text s
  else putText line text s

/-- R116: CONFIGURE. -/
def execConfigure (s : State) : Host.Outcome State Fault Refusal := operate .configure configureSession s

/-- R118: INIT. -/
def execInit (withEntry : Bit) (s : State) : Host.Outcome State Fault Refusal :=
  operate .init (initSession withEntry) s

/-- R119: CLEAR_DISPLAY. -/
def execClearDisplay (s : State) : Host.Outcome State Fault Refusal := operate .lcdCommand (busCycle 0 clearCmd) s

/-- R125: WRITE_TEXT. -/
def execWriteText (line : Nat) (text : List Byte) (s : State) : Host.Outcome State Fault Refusal :=
  operate .lcdCommand (checkedText line text) s

/-- R120, R121: SET_ENTRY_MODE; the cache is written before the bus. -/
def execSetEntryMode (id d : Ctl) (s : State) : Host.Outcome State Fault Refusal :=
  operate .lcdCommand (fun t => busCycle 0 (entryWith t.regEntry id d) (t.setEntry (entryWith t.regEntry id d))) s

/-- R120, R122: SET_DISPLAY. -/
def execSetDisplay (d c b : Ctl) (s : State) : Host.Outcome State Fault Refusal :=
  operate .lcdCommand
    (fun t => busCycle 0 (displayWith t.regDisplay d c b) (t.setDisplay (displayWith t.regDisplay d c b))) s

/-- R120, R123: SET_SHIFT. -/
def execSetShift (sc rl : Ctl) (s : State) : Host.Outcome State Fault Refusal :=
  operate .lcdCommand (fun t => busCycle 0 (shiftWith t.regShift sc rl) (t.setShift (shiftWith t.regShift sc rl))) s

/-- R120, R124: SET_FUNCTION. -/
def execSetFunction (dl n f : Ctl) (s : State) : Host.Outcome State Fault Refusal :=
  operate .lcdCommand
    (fun t => busCycle 0 (functionWith t.regFunction dl n f) (t.setFunction (functionWith t.regFunction dl n f))) s

/-- R128: SESSION_END. Nothing is transmitted; ADAPTER, SR and Q keep their values. PINS and the registers are discarded:
no operation reads them in Ended (assumption log 12). -/
def execSessionEnd (s : State) : Host.Outcome State Fault Refusal :=
  operate .sessionEnd (fun t => .go (t.setSession .ended)) s

end Sys2Proof.Machine
end

