-- ==== Sys2Proof/Machine/LcdWrite.lean ====
section
/-! DEFINITION. The LCD write sequencer: BUS_WRITE (spec/41_lcd_write_sequencer.md section 2) and the LCD transfer
words, each put on the bus by the write cycle that emits it (section 4; assumption log 6). -/

namespace Sys2Proof.Machine

/-- R85: BUS_WRITE. -/
def execBusWrite (rs : Bit) (b : Byte) (s : State) : Host.Outcome State Fault Refusal :=
  operate .bus (busCycle rs b) s

/-- R98: the transfer (0, 0, 00000001). -/
def execLcdClearDisplay (s : State) : Host.Outcome State Fault Refusal :=
  operate .bus (busCycle 0 clearCmd) s

/-- R99: the transfer (0, 0, 000001 ID S). -/
def execLcdEntryModeSet (id d : Bit) (s : State) : Host.Outcome State Fault Refusal :=
  operate .bus (busCycle 0 (0b000001#6 ++ id ++ d)) s

/-- R100: the transfer (0, 0, 00001 D C B). -/
def execLcdDisplayControl (d c b : Bit) (s : State) : Host.Outcome State Fault Refusal :=
  operate .bus (busCycle 0 (0b00001#5 ++ d ++ c ++ b)) s

/-- R101: the transfer (0, 0, 0001 SC RL xx). -/
def execLcdCursorDisplayShift (sc rl : Bit) (low : BitVec 2) (s : State) : Host.Outcome State Fault Refusal :=
  operate .bus (busCycle 0 (0b0001#4 ++ sc ++ rl ++ low)) s

/-- R102: the transfer (0, 0, 001 DL N F xx). -/
def execLcdFunctionSet (dl n f : Bit) (low : BitVec 2) (s : State) : Host.Outcome State Fault Refusal :=
  operate .bus (busCycle 0 (0b001#3 ++ dl ++ n ++ f ++ low)) s

/-- R103: the transfer (0, 0, 1 AAAAAAA). -/
def execLcdSetDdramAddress (a : BitVec 7) (s : State) : Host.Outcome State Fault Refusal :=
  operate .bus (busCycle 0 (1#1 ++ a)) s

/-- R104: the transfer (1, 0, D). -/
def execLcdWriteData (d : Byte) (s : State) : Host.Outcome State Fault Refusal :=
  operate .bus (busCycle 1 d) s

/-- R105: the transfer (0, 0, 0000001 x). -/
def execLcdReturnHome (low : Bit) (s : State) : Host.Outcome State Fault Refusal :=
  operate .bus (busCycle 0 (0b0000001#7 ++ low)) s

/-- R105: the transfer (0, 0, 01 AAAAAA). -/
def execLcdSetCgramAddress (a : BitVec 6) (s : State) : Host.Outcome State Fault Refusal :=
  operate .bus (busCycle 0 (0b01#2 ++ a)) s

end Sys2Proof.Machine
end

