-- ==== Sys2Proof/Machine/ShiftLoader.lean ====
section
/-! DEFINITION. The shift-register serial loader's instructions (spec/40_shift_loader.md section 3). -/

namespace Sys2Proof.Machine

/-- R72: SHIFT_OUT8. -/
def execShiftOut8 (v : Byte) (s : State) : Host.Outcome State Fault Refusal := operate .bus (sendFrame v) s

/-- R73: SHIFT_OUT16. -/
def execShiftOut16 (v : Word) (s : State) : Host.Outcome State Fault Refusal := operate .bus (sendFrame v) s

end Sys2Proof.Machine
end

