-- ==== Sys2Proof/Machine/Dispatch.lean ====
section
/-! DEFINITION. One arm per instruction: its meaning. -/

namespace Sys2Proof.Machine

def exec (i : Instr) (s : State) : Host.Outcome State Fault Refusal :=
  match i with
  -- the shift-register serial loader
  | .shiftOut8 v => Sys2Proof.Machine.execShiftOut8 v s
  | .shiftOut16 v => Sys2Proof.Machine.execShiftOut16 v s
  -- the LCD write sequencer
  | .busWrite rs b => Sys2Proof.Machine.execBusWrite rs b s
  -- the side channels
  | .srClear level => Sys2Proof.Machine.execSrClear level s
  | .srOe level => Sys2Proof.Machine.execSrOe level s
  | .backlight on => Sys2Proof.Machine.execBacklight on s
  | .backlightFor seconds => Sys2Proof.Machine.execBacklightFor seconds s
  -- the LCD command state machine
  | .configure => Sys2Proof.Machine.execConfigure s
  | .init withEntry => Sys2Proof.Machine.execInit withEntry s
  | .clearDisplay => Sys2Proof.Machine.execClearDisplay s
  | .writeText line text => Sys2Proof.Machine.execWriteText line text s
  | .setEntryMode id d => Sys2Proof.Machine.execSetEntryMode id d s
  | .setDisplay d c b => Sys2Proof.Machine.execSetDisplay d c b s
  | .setShift sc rl => Sys2Proof.Machine.execSetShift sc rl s
  | .setFunction dl n f => Sys2Proof.Machine.execSetFunction dl n f s
  | .sessionEnd => Sys2Proof.Machine.execSessionEnd s
  -- the LCD transfer words
  | .lcdClearDisplay => Sys2Proof.Machine.execLcdClearDisplay s
  | .lcdEntryModeSet id d => Sys2Proof.Machine.execLcdEntryModeSet id d s
  | .lcdDisplayControl d c b => Sys2Proof.Machine.execLcdDisplayControl d c b s
  | .lcdCursorDisplayShift sc rl low => Sys2Proof.Machine.execLcdCursorDisplayShift sc rl low s
  | .lcdFunctionSet dl n f low => Sys2Proof.Machine.execLcdFunctionSet dl n f low s
  | .lcdSetDdramAddress a => Sys2Proof.Machine.execLcdSetDdramAddress a s
  | .lcdWriteData d => Sys2Proof.Machine.execLcdWriteData d s
  | .lcdReturnHome low => Sys2Proof.Machine.execLcdReturnHome low s
  | .lcdSetCgramAddress a => Sys2Proof.Machine.execLcdSetCgramAddress a s

end Sys2Proof.Machine
end

