-- ==== Sys2Proof/Machine/Issue.lean ====
section
/-! DEFINITION. How the core takes what the host issues (spec/00_scope.md R6, spec/60_exceptions.md R139 to R142, R149;
assumption log 5), and the host's opening of a session (spec/60_exceptions.md R132). -/

namespace Sys2Proof.Machine

/-- The core takes one issued operation: too early is refused CONCURRENT_ISSUE (R140), no instruction is refused
ILLEGAL_COMMAND (R61, first in R142), any other is executed. -/
def takeOperation (request : Request) (tooEarly : Bool) (s : State) : Host.Outcome State Fault Refusal :=
  if tooEarly then .next (s.refuse .concurrentIssue)
  else
    match decode request with
    | .ok i => exec i s
    | .error _ => .next (s.refuse .illegalCommand)

/-- R149: a second session on the adapter is refused while this one has not ended; the mark is set and nothing else
changes (R139). After SESSION_END the open starts another run (`openSession`) and this one stays as it ended. -/
def refuseSecondSession (s : State) : State :=
  match s.session with
  | .uninitialized => s.refuse .secondSession
  | .configured => s.refuse .secondSession
  | .active => s.refuse .secondSession
  | .failed => s.refuse .secondSession
  | .ended => s

/-- The core takes one issue of the host. -/
def takeIssue (issue : Issue) (s : State) : Host.Outcome State Fault Refusal :=
  match issue with
  | .operation request tooEarly => takeOperation request tooEarly s
  | .openAdapter => .next (refuseSecondSession s)

/-- The core takes the oldest pending issue; with nothing issued it waits (R153). -/
def takeNext (s : State) : Host.Outcome State Fault Refusal :=
  match s.pending with
  | [] => .next s
  | issue :: rest => takeIssue issue (s.setPending rest)

/-- The request issued ahead of all others. -/
def issueFirst (r : Request) (s : State) : State := s.setPending (.operation r false :: s.pending)

/-! Another run on the same adapter (assumption log 19). -/

/-- What comes of opening the adapter. -/
inductive Opening where
  /-- A session start (R153, R154). -/
  | session (s : State)
  /-- No session exists, and the caller gets the code (R132). -/
  | failed (c : ReturnCode)
  /-- No new session: the run on this adapter stands at `s`, from which there is no step. -/
  | stopped (s : State)
  deriving DecidableEq, Repr

/-- The host opens a session on the adapter that `s` leaves behind (R132, R149, R154, R162): outside `step`, since it
starts another run (assumption log 19). `opened` is whether the adapter opens. After SESSION_END a failed open gives no
session and the code ADAPTER_OPEN_FAILED, and a good one a session start over the chain as it stands, with the draws still
to come. A second session on an adapter whose session has not ended is refused (R149). A run with a sticky fault or the
REFUSED mark, or a stuck one, is never followed by another session, whatever its session state: the spec does not say,
and its "no further step" (R134, R139, R141) is read so (DESIGN CHOICE, assumption log 22). -/
def openSession (opened : Bool) (p : Params) (s : State) : Opening :=
  match s.faults, s.refused, s.stuck, s.session with
  | _ :: _, _, _, _ => .stopped s
  | [], some _, _, _ => .stopped s
  | [], none, true, _ => .stopped s
  | [], none, false, .ended =>
    if opened then .session (State.start p s.adapter s.sr s.q s.transport s.floats) else .failed .adapterOpenFailed
  | [], none, false, _ => .stopped (refuseSecondSession s)

end Sys2Proof.Machine
end

