-- ==== Sys2Proof/Machine/Step.lean ====
section
/-! DEFINITION. One step of the machine: one operation (assumption log 20), and none from a state with a sticky fault or
the REFUSED mark or from a stuck one (spec/60_exceptions.md R134, R139, R141). -/

namespace Sys2Proof.Machine

def step (s : State) : Host.Outcome State Fault Refusal := whenLive s (takeNext s)

/-- `s` with the request of an opcode-table word issued ahead of all others. -/
def State.withFetchWord (s : State) (nbits w : Nat) : State := issueFirst (tableRequest nbits w) s

end Sys2Proof.Machine
end

