-- ==== Sys2Proof/Safety.lean ====
section
/-! DEFINITION. The words claims are stated in: when a state can step, when the cache and the chain agree, when the LCD's
inputs are ready for a clean write and what clean writes leave, which sessions admit which instruction, the invariants,
and what a good end is (spec/10_state.md R16, R26, spec/41_lcd_write_sequencer.md R94, spec/43_lcd_command_state_machine.md
R115, spec/70_reset_and_hazards.md R155, R167). -/

namespace Sys2Proof.Machine

/-! Hypotheses on a state. -/

/-- No sticky fault, no refusal and not stuck: the machine can take a step (R134, R139, R141). -/
abbrev State.Live (s : State) : Prop := s.faults = [] ∧ s.refused = none ∧ s.stuck = false

/-- The next `n` transmissions answer `ok`. -/
def Draws.oks (d : Draws Answer) : Nat → Bool
  | 0 => true
  | n + 1 => d.head == .ok && d.tail.oks n

/-- The draws after the next `n`. -/
def Draws.skip {α : Type} (d : Draws α) : Nat → Draws α
  | 0 => d
  | n + 1 => d.tail.skip n

/-- `k` answers `ok`, then `a`, then the draws `d`. -/
def Draws.oksThen (k : Nat) (a : Answer) (d : Draws Answer) : Draws Answer :=
  ⟨List.replicate k .ok ++ a :: d.listed, d.rest⟩

/-- R16: the cache is what the adapter drives, or it is still 0x00 because nothing has been transmitted. -/
abbrev State.Synced (s : State) : Prop := s.adapter = s.pins ∨ s.pins = 0x00

/-- R96: with the pins `p` no driven view has E = RW = 1, neither the outputs as they stand nor the word `next`. -/
abbrev State.Uncontended (s : State) (p : Byte) (next : Word) : Prop :=
  p[5] = true ∨ (contended s.q = false ∧ contended next = false)

/-- R94 (2) to (4): the cache is what the adapter drives, clear is released, the outputs are enabled, E is low and no
pulse is in progress. -/
abbrev State.LcdReady (s : State) : Prop :=
  s.adapter = s.pins ∧ s.pins[4] = true ∧ s.pins[5] = false ∧ eOf s.q = false ∧ s.pulse = .idle

/-- R155: `CleanStart` of the levels A0 and the outputs Q. -/
abbrev CleanStart (a0 : Byte) (q : Word) : Prop := a0[5] = false ∧ eOf q = false

/-! What frames and clean bus writes leave. -/

/-- R69: the pins after a frame whose last bit is `d`: SRCLK and RCLK high, SER at `d`, the others as they were. -/
def framePins (p : Byte) (d : Bool) : Byte := (p &&& 0xF2) ||| 0x0C ||| (if d then 1 else 0)

/-- R94: where clean bus writes lead, one after the other: for each, three 66-byte transmissions and one transfer before
the last of their events, and the word on the chain. -/
def State.afterWrites : List (Bit × Byte) → State → State
  | [], s => s
  | (rs, b) :: ws, s =>
    State.afterWrites ws
      { s with
        pins := framePins s.pins (busWord s.params.dataHi rs b)[0]
        adapter := framePins s.pins (busWord s.params.dataHi rs b)[0]
        sr := busWord s.params.dataHi rs b
        q := busWord s.params.dataHi rs b
        log := s.log ++ [.tx 66 true, .tx 66 true, .transfer rs 0 b, .tx 66 true]
        transport := s.transport.skip 3 }

/-- The transfers the LCD may have latched, in order: the log without its `Tx` and `Wait` events (R97). -/
def lcdEvents (log : List Event) : List Event :=
  log.filter fun e =>
    match e with
    | .transfer _ _ _ => true
    | .anyTransfer => true
    | .wait _ => false
    | .tx _ _ => false

/-- The `Tx` events of a log, in order. -/
def txEvents (log : List Event) : List Event :=
  log.filter fun e =>
    match e with
    | .tx _ _ => true
    | .transfer _ _ _ => false
    | .anyTransfer => false
    | .wait _ => false

/-- R55: the class of a latched transfer, where it has one. -/
def Event.lcdInstr : Event → Option Instr
  | .transfer rs rw d =>
    match decodeLcd (rs ++ rw ++ d) with
    | .ok i => some i
    | .error _ => none
  | .anyTransfer => none
  | .wait _ => none
  | .tx _ _ => none

/-! Tables of the spec, written out a second time for the statements. -/

/-- R115: the session states that admit an instruction. The LCD transfer words are admitted as bus writes are
(assumption log 6). -/
def admittedIn : Instr → List Session
  | .shiftOut8 _ => [.configured, .active]
  | .shiftOut16 _ => [.configured, .active]
  | .busWrite _ _ => [.configured, .active]
  | .srClear _ => [.uninitialized, .configured, .active]
  | .srOe _ => [.uninitialized, .configured, .active]
  | .backlight _ => [.uninitialized, .configured, .active]
  | .backlightFor _ => [.uninitialized, .configured, .active]
  | .configure => [.uninitialized]
  | .init _ => [.configured]
  | .clearDisplay => [.active]
  | .writeText _ _ => [.active]
  | .setEntryMode _ _ => [.active]
  | .setDisplay _ _ _ => [.active]
  | .setShift _ _ => [.active]
  | .setFunction _ _ _ => [.active]
  | .sessionEnd => [.uninitialized, .configured, .active, .failed]
  | .lcdClearDisplay => [.configured, .active]
  | .lcdEntryModeSet _ _ => [.configured, .active]
  | .lcdDisplayControl _ _ _ => [.configured, .active]
  | .lcdCursorDisplayShift _ _ _ => [.configured, .active]
  | .lcdFunctionSet _ _ _ _ => [.configured, .active]
  | .lcdSetDdramAddress _ => [.configured, .active]
  | .lcdWriteData _ => [.configured, .active]
  | .lcdReturnHome _ => [.configured, .active]
  | .lcdSetCgramAddress _ => [.configured, .active]

/-- A command row of spec/opcode_table.json: its mask, its match, and the low bits of its ctl fields. -/
structure CommandRow where
  mask  : BitVec 32
  fixed : BitVec 32
  ctls  : List Nat

/-- The sixteen command rows of spec/opcode_table.json. -/
def commandRows : List CommandRow :=
  [⟨0xFFFFFF00, 0x01000000, []⟩, ⟨0xFFFF0000, 0x01010000, []⟩, ⟨0xFFFFFE00, 0x02000000, []⟩,
    ⟨0xFFFFFFFE, 0x03000000, []⟩, ⟨0xFFFFFFFE, 0x04000000, []⟩, ⟨0xFFFFFFFE, 0x05000000, []⟩,
    ⟨0xFF000000, 0x06000000, []⟩, ⟨0xFFFFFFFF, 0x10000000, []⟩, ⟨0xFFFFFFFE, 0x11000000, []⟩,
    ⟨0xFFFFFFFF, 0x12000000, []⟩, ⟨0xFFFFFF00, 0x13000000, []⟩, ⟨0xFFFFFFF0, 0x20000000, [2, 0]⟩,
    ⟨0xFFFFFFC0, 0x21000000, [4, 2, 0]⟩, ⟨0xFFFFFF0F, 0x22000000, [6, 4]⟩, ⟨0xFFFFFC0F, 0x23000000, [8, 6, 4]⟩,
    ⟨0xFFFFFFFF, 0x30000000, []⟩]

/-- The words an instruction puts on the LCD bus from the state `s` when its operands pass the caller-input checks, as
(RS, byte) pairs in order (R85, R98 to R105, R118 to R127); none for an instruction that makes no bus write. -/
def busWritesOf (s : State) : Instr → List (Bit × Byte)
  | .busWrite rs b => [(rs, b)]
  | .init withEntry =>
    [(0, 0x01), (0, s.regFunction), (0, s.regDisplay)] ++ (if withEntry = 1 then [(0, s.regEntry)] else [])
  | .clearDisplay => [(0, 0x01)]
  | .writeText line text => (0, if line = 1 then 0x80 else 0xC0) :: text.map (fun ch => (1, ch)) ++
      [(0, s.regDisplay ||| 0x04)]
  | .setEntryMode id d => [(0, entryWith s.regEntry id d)]
  | .setDisplay d cu b => [(0, displayWith s.regDisplay d cu b)]
  | .setShift sc rl => [(0, shiftWith s.regShift sc rl)]
  | .setFunction dl n f => [(0, functionWith s.regFunction dl n f)]
  | .lcdClearDisplay => [(0, 0x01)]
  | .lcdEntryModeSet id d => [(0, 0b000001#6 ++ id ++ d)]
  | .lcdDisplayControl d cu b => [(0, 0b00001#5 ++ d ++ cu ++ b)]
  | .lcdCursorDisplayShift sc rl low => [(0, 0b0001#4 ++ sc ++ rl ++ low)]
  | .lcdFunctionSet dl n f low => [(0, 0b001#3 ++ dl ++ n ++ f ++ low)]
  | .lcdSetDdramAddress a => [(0, 1#1 ++ a)]
  | .lcdWriteData d => [(1, d)]
  | .lcdReturnHome low => [(0, 0b0000001#7 ++ low)]
  | .lcdSetCgramAddress a => [(0, 0b01#2 ++ a)]
  | .shiftOut8 _ => []
  | .shiftOut16 _ => []
  | .srClear _ => []
  | .srOe _ => []
  | .backlight _ => []
  | .backlightFor _ => []
  | .configure => []
  | .sessionEnd => []

/-- R58: what a ctl value makes of a flag. -/
def ctlLevel (x : Ctl) (old : Bool) : Bool :=
  match x with
  | .keep => old
  | .clear => false
  | .set => true

/-- R68: the bytes of the first frame an instruction sends, 34 for an 8-bit word and 66 for a 16-bit one (R72, R73, R85,
R106, R116, R118); 0 for SESSION_END, which sends none (R128). -/
def firstFrameBytes : Instr → Nat
  | .shiftOut8 _ => 34
  | .shiftOut16 _ => 66
  | .busWrite _ _ => 66
  | .srClear _ => 34
  | .srOe _ => 34
  | .backlight _ => 34
  | .backlightFor _ => 34
  | .configure => 34
  | .init _ => 66
  | .clearDisplay => 66
  | .writeText _ _ => 66
  | .setEntryMode _ _ => 66
  | .setDisplay _ _ _ => 66
  | .setShift _ _ => 66
  | .setFunction _ _ _ => 66
  | .sessionEnd => 0
  | .lcdClearDisplay => 66
  | .lcdEntryModeSet _ _ => 66
  | .lcdDisplayControl _ _ _ => 66
  | .lcdCursorDisplayShift _ _ _ => 66
  | .lcdFunctionSet _ _ _ _ => 66
  | .lcdSetDdramAddress _ => 66
  | .lcdWriteData _ => 66
  | .lcdReturnHome _ => 66
  | .lcdSetCgramAddress _ => 66

/-- R71, R134: an answer under which the first `n` bytes of a frame are delivered. -/
def Answer.delivers (n : Nat) : Answer → Bool
  | .ok => true
  | .fail m _ _ => n ≤ m
  | .never m => n ≤ m

/-- R85: the pins and the outputs of the first frame of a bus write, as in `firstFrame`. -/
def firstBusFrame (i : Instr) (s : State) : Option (Byte × Word) :=
  (busWritesOf s i).head?.map fun w => (s.pins, if s.pins[4] then busWord s.params.dataHi w.1 w.2 else 0)

/-- R72, R73, R80 to R82, R85, R106 to R111, R116: the pins under which an instruction sends its first frame, and what
the outputs hold once all of that frame is delivered; none for SESSION_END, which sends none (R128). With clear released
an 8-bit frame moves the lower register up, with clear held the outputs are 0. -/
def firstFrame (i : Instr) (s : State) : Option (Byte × Word) :=
  match i with
  | .shiftOut8 v => some (s.pins, if s.pins[4] then s.sr.extractLsb' 0 8 ++ v else 0)
  | .shiftOut16 v => some (s.pins, if s.pins[4] then v else 0)
  | .srClear level => some ((s.pins &&& 0xEF) ||| (if level = 1 then 0x10 else 0), if level = 1 then s.sr <<< 8 else 0)
  | .srOe level => some ((s.pins &&& 0xDF) ||| (if level = 1 then 0x20 else 0), if s.pins[4] then s.sr <<< 8 else 0)
  | .backlight on => some ((s.pins &&& 0x3F) ||| (if on = 1 then 0xC0 else 0), if s.pins[4] then s.sr <<< 8 else 0)
  | .backlightFor _ => some (s.pins ||| 0xC0, if s.pins[4] then s.sr <<< 8 else 0)
  | .configure => some (s.pins &&& 0xEF, 0)
  | .sessionEnd => none
  | .busWrite rs b => firstBusFrame (.busWrite rs b) s
  | .init withEntry => firstBusFrame (.init withEntry) s
  | .clearDisplay => firstBusFrame .clearDisplay s
  | .writeText line text => firstBusFrame (.writeText line text) s
  | .setEntryMode id d => firstBusFrame (.setEntryMode id d) s
  | .setDisplay d cu b => firstBusFrame (.setDisplay d cu b) s
  | .setShift sc rl => firstBusFrame (.setShift sc rl) s
  | .setFunction dl n f => firstBusFrame (.setFunction dl n f) s
  | .lcdClearDisplay => firstBusFrame .lcdClearDisplay s
  | .lcdEntryModeSet id d => firstBusFrame (.lcdEntryModeSet id d) s
  | .lcdDisplayControl d cu b => firstBusFrame (.lcdDisplayControl d cu b) s
  | .lcdCursorDisplayShift sc rl low => firstBusFrame (.lcdCursorDisplayShift sc rl low) s
  | .lcdFunctionSet dl n f low => firstBusFrame (.lcdFunctionSet dl n f low) s
  | .lcdSetDdramAddress a => firstBusFrame (.lcdSetDdramAddress a) s
  | .lcdWriteData d => firstBusFrame (.lcdWriteData d) s
  | .lcdReturnHome low => firstBusFrame (.lcdReturnHome low) s
  | .lcdSetCgramAddress a => firstBusFrame (.lcdSetCgramAddress a) s

/-- R120, R133: the LCD registers as they stand when an instruction sends its first frame: a SET_ operation has written
its own by then. -/
def State.withRegistersOf (i : Instr) (s : State) : State :=
  { s with
    regEntry := (match i with | .setEntryMode id d => entryWith s.regEntry id d | _ => s.regEntry)
    regDisplay := (match i with | .setDisplay d cu b => displayWith s.regDisplay d cu b | _ => s.regDisplay)
    regShift := (match i with | .setShift sc rl => shiftWith s.regShift sc rl | _ => s.regShift)
    regFunction := (match i with | .setFunction dl n f => functionWith s.regFunction dl n f | _ => s.regFunction) }

/-! Relations between two states. -/

/-- The two states are alike but for the backlight bits 6 and 7 of PINS and ADAPTER. -/
abbrev State.AlikeButBacklight (s s' : State) : Prop :=
  s' = { s with pins := s'.pins, adapter := s'.adapter } ∧ s'.pins &&& 0x3F = s.pins &&& 0x3F ∧
    s'.adapter &&& 0x3F = s.adapter &&& 0x3F

/-! Invariants. -/

/-- R26: PULSE as the LCD's view has it. While the inputs float it is Dirty, while E is low it is Idle, while E is high
it is Dirty or holds the view without E. -/
def State.PulseAgrees (s : State) : Prop :=
  match s.view with
  | none => s.pulse = .dirty
  | some v => if eOf v then s.pulse = .dirty ∨ s.pulse = .clean (withoutE v) else s.pulse = .idle

/-- R17 to R21: the bits of the four registers that no operation changes. -/
abbrev State.RegistersFixed (s : State) : Prop :=
  entryFixed s.regEntry = true ∧ displayFixed s.regDisplay = true ∧ shiftFixed s.regShift = true ∧
    functionFixed s.regFunction = true

/-- R14 and R113: in a session that has not failed or ended, bit 1 of PINS is 0 and the two backlight bits agree. -/
abbrev State.PinsSound (s : State) : Prop :=
  s.session ≠ .failed → s.session ≠ .ended → s.pins[1] = false ∧ s.pins[6] = s.pins[7]

/-- R16: while no fault stands and no transmission is unanswered, the cache of a configured or active session is what the adapter drives, and that of an
uninitialized one is so too once it is not 0x00. -/
abbrev State.CacheMatches (s : State) : Prop :=
  s.faults = [] → s.stuck = false →
    (s.session = .configured ∨ s.session = .active → s.adapter = s.pins) ∧ (s.session = .uninitialized → s.Synced)

/-! The end of a run. -/

/-- R167: `OK` or a caller-input error. -/
def ReturnCode.harmless : ReturnCode → Bool
  | .ok => true
  | .badLine => true
  | .textTooLong => true
  | .adapterOpenFailed => false
  | .transmissionFailed _ => false

/-- R167: the run ended well, so that it is not stuck either. That SESSION was not Failed before SESSION_END follows from the codes: a failed
transmission leaves its code. -/
abbrev State.GoodEnd (s : State) : Prop :=
  s.session = .ended ∧ s.refused = none ∧ s.faults = [] ∧ s.stuck = false ∧
    s.codes.all ReturnCode.harmless = true

end Sys2Proof.Machine
end

