-- ==== Sys2Proof/Certificates/Slice0/Obligations.lean ====
section
/-! DEFINITION. The statements about the machine. Where a statement rests on a decision or a derivation that the spec
marks as its own (D<n> of spec/92_eei_decisions.md, or "derived"), or on an entry of the assumption log, its docstring
says so. -/

open Sys2Proof Sys2Proof.Machine

/-! Encodings. -/

/-- spec/30_encoding.md R57, R58 (the spec's decision D19), R55. No bit of an encoding is dropped: decoding an encoded
well-formed instruction gives it back. The LCD words and their open low bits as instructions: assumption log 6 and 7. -/
def Obligations.DecodeInvertsEncode : Prop :=
  ∀ i : Instr, i.wellFormed = true → decode (encode i) = .ok i

/-- spec/30_encoding.md R56 to R61 (D19, D20), R55. The other direction: a word that decodes has that one encoding, so
no reserved word falls through to a neighbour. A text beside a word that takes none is dropped (assumption log 14). The
LCD words: assumption log 6 and 7. -/
def Obligations.EncodeInvertsDecode : Prop :=
  (∀ (word : BitVec 10) (i : Instr), decode (.lcd word) = .ok i → i.wellFormed = true ∧ encode i = .lcd word) ∧
  (∀ (cw : BitVec 32) (text : List Byte) (i : Instr), decode (.command cw text) = .ok i →
    i.wellFormed = true ∧ ∃ kept, encode i = .command cw kept ∧
      (kept = text ∨ (kept = [] ∧ ∀ line t, i ≠ .writeText line t)))

/-- spec/30_encoding.md R57, R61 (D19, D20). A command word is an instruction exactly when it shows the fixed bits of a
command row of spec/opcode_table.json and no ctl field of that row is 01. -/
def Obligations.LegalWordsAreTableRows : Prop :=
  ∀ (cw : BitVec 32) (text : List Byte),
    (∃ i, decode (.command cw text) = .ok i) ↔
      ∃ row ∈ commandRows, cw &&& row.mask = row.fixed ∧ ∀ lo ∈ row.ctls, cw.extractLsb' lo 2 ≠ 0b01

/-- spec/95_test_vectors.md 2.1 and spec/30_encoding.md section 6: eight command words over the families, two illegal ones,
with what they stand for. The LCD word is from the classes of spec/30_encoding.md R55, section 3; that such a word is an
instruction is the model's choice (assumption log 6). -/
def Obligations.SpecWordsDecode : Prop :=
  decodeTableWord 32 0x010000A5 = some (.shiftOut8 0xA5) ∧
  decodeTableWord 32 0x01010800 = some (.shiftOut16 0x0800) ∧
  decodeTableWord 32 0x02000141 = some (.busWrite 1 0x41) ∧
  decodeTableWord 32 0x04000000 = some (.srOe 0) ∧
  decodeTableWord 32 0x06FFFFFF = some (.backlightFor 16777215) ∧
  decodeTableWord 32 0x13000002 = some (.writeText 2 []) ∧
  decodeTableWord 32 0x2100003F = some (.setDisplay .set .set .set) ∧
  decodeTableWord 32 0x23000200 = some (.setFunction .clear .keep .keep) ∧
  decodeTableWord 32 0x20000001 = none ∧
  decodeTableWord 32 0x01000100 = none ∧
  decodeTableWord 16 0b0010000000 = some (.lcdSetDdramAddress 0)

/-- spec/30_encoding.md R51 to R53 and spec/41_lcd_write_sequencer.md R84 (D3, D41). For every data-pin map the spec admits,
the bus word shows bit k of the byte at 11 + k for k = 0..4 and at d5, d6, d7 for k = 5..7, RS at 8, and 0 everywhere
else, so that E and RW are low; `Unmap` reads those lines and undoes `Map`. That data lines put at 0..4 carry data, which
D4 and R84 call always 0, is the model's choice: assumption log 21. -/
def Obligations.DataPinMapIsReversible : Prop :=
  ∀ (dp : DataHiPos) (rs : Bit) (b : Byte), dp.distinct = true →
    unmapWord dp (mapByte dp b) = b ∧ unmapWord dp (busWord dp rs b) = b ∧ mapByte dp b = busWord dp 0 b ∧
    (busWord dp rs b).extractLsb' 8 1 = rs ∧ rwOf (busWord dp rs b) = false ∧ eOf (busWord dp rs b) = false ∧
    (∀ k, k < 5 → (busWord dp rs b).getLsbD (11 + k) = b.getLsbD k) ∧
    (busWord dp rs b).getLsbD dp.d5.val = b.getLsbD 5 ∧ (busWord dp rs b).getLsbD dp.d6.val = b.getLsbD 6 ∧
    (busWord dp rs b).getLsbD dp.d7.val = b.getLsbD 7 ∧
    (∀ j, j < 11 → j ≠ 8 → j ≠ dp.d5.val → j ≠ dp.d6.val → j ≠ dp.d7.val → (busWord dp rs b).getLsbD j = false) ∧
    ∀ q : Word, (∀ k, k < 5 → (unmapWord dp q).getLsbD k = q.getLsbD (11 + k)) ∧
      (unmapWord dp q).getLsbD 5 = q.getLsbD dp.d5.val ∧ (unmapWord dp q).getLsbD 6 = q.getLsbD dp.d6.val ∧
      (unmapWord dp q).getLsbD 7 = q.getLsbD dp.d7.val

/-- spec/30_encoding.md R58 and spec/43_lcd_command_state_machine.md R120 (D13). A ctl field changes its own bit alone,
to the value it names, and doing it again changes nothing. -/
def Obligations.CtlFieldsAreBitSurgical : Prop :=
  ∀ (r : Byte) (k j : Nat) (x : Ctl), k < 8 →
    (applyCtl r k x).getLsbD j =
      (if j = k then (match x with | .keep => r.getLsbD j | .clear => false | .set => true) else r.getLsbD j) ∧
    applyCtl (applyCtl r k x) k x = applyCtl r k x

/-- spec/43_lcd_command_state_machine.md R121 to R124 and spec/10_state.md R18 to R21 (the spec's decision D12). Each flag
stands at its own bit: ID 1 and S 0 of REG_ENTRY, D 2, C 1 and B 0 of REG_DISPLAY, SC 3 and RL 2 of REG_SHIFT, DL 4, N 3
and F 2 of REG_FUNCTION. The new byte is the old one with those bits at the levels that the ctl values make of them. -/
def Obligations.RegisterFlagsStandAtTheirBits : Prop :=
  ∀ r : Byte,
    (∀ id s, entryWith r id s =
      r.extractLsb' 2 6 ++ BitVec.ofBool (ctlLevel id r[1]) ++ BitVec.ofBool (ctlLevel s r[0])) ∧
    (∀ d c b, displayWith r d c b =
      r.extractLsb' 3 5 ++ BitVec.ofBool (ctlLevel d r[2]) ++ BitVec.ofBool (ctlLevel c r[1]) ++
        BitVec.ofBool (ctlLevel b r[0])) ∧
    (∀ sc rl, shiftWith r sc rl =
      r.extractLsb' 4 4 ++ BitVec.ofBool (ctlLevel sc r[3]) ++ BitVec.ofBool (ctlLevel rl r[2]) ++ r.extractLsb' 0 2) ∧
    (∀ dl n f, functionWith r dl n f =
      r.extractLsb' 5 3 ++ BitVec.ofBool (ctlLevel dl r[4]) ++ BitVec.ofBool (ctlLevel n r[3]) ++
        BitVec.ofBool (ctlLevel f r[2]) ++ r.extractLsb' 0 2)

/-! The serial loader. -/

/-- spec/40_shift_loader.md R68. The frame length is 4·w + 2: 34 bytes for w = 8 and 66 for w = 16. -/
def Obligations.FrameLength : Prop :=
  (∀ (w : Nat) (p : Byte) (v : BitVec w), (encodeFrame p v).1.length = 4 * w + 2) ∧
  (∀ (p : Byte) (v : BitVec 8), (encodeFrame p v).1.length = 34) ∧
  (∀ (p : Byte) (v : BitVec 16), (encodeFrame p v).1.length = 66)

/-- spec/40_shift_loader.md R69 (derived there) and spec/30_encoding.md R50. The new pin state is the last byte of the
frame, SRCLK and RCLK high and SER at bit 0 of the word; every byte keeps the pins other than SER, RCLK and SRCLK. -/
def Obligations.FrameKeepsOtherPins : Prop :=
  ∀ (w : Nat) (p : Byte) (v : BitVec (w + 1)),
    (encodeFrame p v).1.getLast? = some (encodeFrame p v).2 ∧
    (encodeFrame p v).2 = (p &&& 0xF2) ||| 0x0C ||| (if v.getLsbD 0 then 1 else 0) ∧
    ∀ b ∈ (encodeFrame p v).1, b &&& 0xF2 = p &&& 0xF2

/-- spec/40_shift_loader.md R70 (derived there). Byte 0 is the pins with RCLK low. The four bytes of the bit at position
n, which is bit w-1-n: SRCLK low with the SER of the bit before (of the pins, for n = 0), then SER at the bit with SRCLK
low, with SRCLK high, and the same again, all with RCLK low. The last byte has RCLK high. -/
def Obligations.FrameShape : Prop :=
  ∀ (w : Nat) (p : Byte) (v : BitVec w),
    (encodeFrame p v).1[0]? = some (p &&& 0xFB) ∧
    (∀ n, n < w →
      (encodeFrame p v).1[4 * n + 1]? =
        some ((p &&& 0xF2#8) ||| (if (if n = 0 then p[0] else v.getLsbD (w - n)) then 1 else 0)) ∧
      (encodeFrame p v).1[4 * n + 2]? = some ((p &&& 0xF2) ||| (if v.getLsbD (w - 1 - n) then 1 else 0)) ∧
      (encodeFrame p v).1[4 * n + 3]? = some ((p &&& 0xF2) ||| 0x08 ||| (if v.getLsbD (w - 1 - n) then 1 else 0)) ∧
      (encodeFrame p v).1[4 * n + 4]? = some ((p &&& 0xF2) ||| 0x08 ||| (if v.getLsbD (w - 1 - n) then 1 else 0))) ∧
    ((encodeFrame p v).1[4 * w + 1]?).any (fun b => b[2]) = true

/-- spec/41_lcd_write_sequencer.md R87 (derived there; D18). Where the pins before a bus write have SRCLK = RCLK = 1 and
SER = 0 and bit 0 of the bus word is 0 (with the default dataHiPos it is; a map with a data line at 0: assumption log 21), the
frame of phase 3 is that of phase 1, and
the frame of phase 2 differs from it at the bytes 22 to 25, where it has SER = 1 for SER = 0, and nowhere else. -/
def Obligations.PhasesDifferInEnableOnly : Prop :=
  ∀ (p : Byte) (v : Word), p[0] = false → p[2] = true → p[3] = true → v[0] = false → v[10] = false →
    let f1 := encodeFrame p v
    let f2 := encodeFrame f1.2 (v ||| 0x0400)
    let f3 := encodeFrame f2.2 (v &&& ~~~0x0400#16)
    f3.1 = f1.1 ∧
    ∀ j, j < 66 → f2.1[j]? = (f1.1[j]?).map fun b => if 22 ≤ j ∧ j ≤ 25 then b ||| 0x01 else b

/-- spec/40_shift_loader.md R77: on a 0 to 1 transition of RCLK (bit 2) Q is loaded from the shift stage. The stage is
the one before this byte's own shift (R78, the spec's decision D7) and is held at 0 while CLR_N is 0 (R75, D6); without
that transition Q stays. -/
def Obligations.LatchLoadsOutputs : Prop :=
  ∀ (b : Byte) (s : State),
    (s.adapter[2] = false → b[2] = true → (applyByte b s).q = if b[4] then s.sr else 0) ∧
    ((s.adapter[2] = true ∨ b[2] = false) → (applyByte b s).q = s.q)

/-- spec/40_shift_loader.md R75, R76 (the spec's decisions D6, D8). With CLR_N = 0 the stage is 0 and no edge shifts;
with CLR_N = 1 a 0 to 1 transition of SRCLK shifts one place toward bit 15, SER entering bit 0, and no other byte moves
the stage. -/
def Obligations.ClockShiftsStage : Prop :=
  ∀ (b : Byte) (s : State),
    (b[4] = false → (applyByte b s).sr = 0) ∧
    (b[4] = true → s.adapter[3] = false → b[3] = true →
      (applyByte b s).sr.getLsbD 0 = b[0] ∧
      ∀ i, i < 15 → (applyByte b s).sr.getLsbD (i + 1) = s.sr.getLsbD i) ∧
    (b[4] = true → (s.adapter[3] = true ∨ b[3] = false) → (applyByte b s).sr = s.sr)

/-- spec/40_shift_loader.md R79. After the edges ADAPTER is the byte; bits 5 to 7 and 1 have no effect on SR or Q; bit 5
decides VIEW (R25). -/
def Obligations.AdapterTakesByte : Prop :=
  ∀ (b b' : Byte) (s : State),
    (applyByte b s).adapter = b ∧
    (b &&& 0x1D = b' &&& 0x1D → (applyByte b s).sr = (applyByte b' s).sr ∧ (applyByte b s).q = (applyByte b' s).q) ∧
    (applyByte b s).view = if b[5] then none else some (applyByte b s).q

/-- spec/40_shift_loader.md R83 (derived there). Until the last byte of a frame no byte changes Q, whatever the state
and however many of them are delivered. -/
def Obligations.OutputsWaitForLastByte : Prop :=
  ∀ (w m : Nat) (p : Byte) (v : BitVec w) (s : State), m ≤ 4 * w + 1 →
    (deliver ((encodeFrame p v).1.take m) s).q = s.q

/-- spec/40_shift_loader.md R72, R39, R80 to R82 (derived there; D6). SHIFT_OUT8 completes wherever it is admitted, the
transmission answers `ok` and no contention stands: with clear released the byte enters the lower register, so that
Q[7:0] = v, and the lower register's old contents move up; with clear held SR and Q are 0. Everything else stays but the
LCD side, which takes the one step of the latch. -/
def Obligations.ShiftOutEightLoadsAndLatches : Prop :=
  ∀ (v : Byte) (s : State), s.Live → s.session ∈ admittedIn (.shiftOut8 v) → s.adapter = s.pins →
    s.transport.oks 1 = true → s.Uncontended s.pins (if s.pins[4] then s.sr.extractLsb' 0 8 ++ v else 0) →
    let next : Word := if s.pins[4] then s.sr.extractLsb' 0 8 ++ v else 0
    let lcd := lcdStep s.view (viewOf s.pins next) s
    exec (.shiftOut8 v) s = .next { s with
      pins := framePins s.pins v[0], adapter := framePins s.pins v[0], sr := next, q := next, pulse := lcd.pulse,
      log := lcd.log ++ [.tx 34 true], codes := s.codes ++ [.ok], transport := s.transport.skip 1 }

/-- spec/40_shift_loader.md R73, R80 to R82 (derived there; D6). SHIFT_OUT16 likewise: with clear released Q = SR = v,
with clear held both are 0. -/
def Obligations.ShiftOutSixteenLoadsAndLatches : Prop :=
  ∀ (v : Word) (s : State), s.Live → s.session ∈ admittedIn (.shiftOut16 v) → s.adapter = s.pins →
    s.transport.oks 1 = true → s.Uncontended s.pins (if s.pins[4] then v else 0) →
    let next : Word := if s.pins[4] then v else 0
    let lcd := lcdStep s.view (viewOf s.pins next) s
    exec (.shiftOut16 v) s = .next { s with
      pins := framePins s.pins v[0], adapter := framePins s.pins v[0], sr := next, q := next, pulse := lcd.pulse,
      log := lcd.log ++ [.tx 66 true], codes := s.codes ++ [.ok], transport := s.transport.skip 1 }

/-- spec/41_lcd_write_sequencer.md R96 and spec/60_exceptions.md R141, R142 (D32). A raw word with E and RW both 1,
latched over ready inputs, records READ_CONTENTION at the frame's last byte: the word stands on Q, PINS and the codes
are as before and no Tx event is logged (assumption log 8), and no step follows. -/
def Obligations.ReadContentionStopsTheMachine : Prop :=
  ∀ (v : Word) (s : State), s.Live → s.session ∈ admittedIn (.shiftOut16 v) → s.LcdReady →
    s.transport.oks 1 = true → v[10] = true → v[9] = true →
    ∃ t, exec (.shiftOut16 v) s = .next t ∧ t.faults = [.readContention] ∧ t.q = v ∧ t.sr = v ∧ t.pins = s.pins ∧
      t.codes = s.codes ∧ t.log = s.log ∧ t.session = s.session ∧ step t = .fault (.sticky .readContention)

/-- spec/41_lcd_write_sequencer.md R90, R95, R96 and spec/60_exceptions.md R134, R141, R142 (D25, D32; what a fault leaves
undone is the model's reading: assumption log 8; a contended byte still takes its edge: log 9). Every way to
READ_CONTENTION, for every admitted instruction whose first frame enables the outputs; CacheMatches is an invariant
(CacheMatchesAfterEveryStep), and ContentionHasNoOtherWay is the converse. Outputs that hold E and RW high fault at byte
0 where they were driven already, and at byte 1 where they floated, since byte 0 drives them again (the float draws: log
3). Outputs that do not, and hold them at the frame's last byte, fault there, whether E was low or high before. A
transmission that fails, or never answers (log 11), with the faulting byte delivered faults in the same way (a draw over
the frame's length stands for all bytes: log 2). That the LCD transfer words are instructions, admitted as BUS_WRITE is, is the model's choice: log
6. -/
def Obligations.ContentionIsRecordedOnEveryWay : Prop :=
  ∀ (i : Instr) (p : Byte) (next : Word) (s : State), s.Live → s.CacheMatches → s.session ∈ admittedIn i →
    (∀ line t, i = .writeText line t → (line = 1 ∨ line = 2) ∧ (t.length ≤ 16 ∨ s.params.textPolicy ≠ .reject)) →
    firstFrame i s = some (p, next) → p[5] = false →
    let cut : State := { s.withRegistersOf i with
      pins := p, faults := [.readContention], transport := s.transport.tail }
    (contended s.q = true → s.adapter[5] = false → s.transport.head.delivers 1 = true →
      exec i s = .next { cut with adapter := p &&& 0xFB, sr := if p[4] then s.sr else 0 }) ∧
    (contended s.q = true → s.adapter[5] = true → s.transport.head.delivers 2 = true →
      exec i s = .next { cut with
        adapter := p &&& 0xF3, sr := if p[4] then s.sr else 0, pulse := .dirty,
        log := s.log ++ List.replicate s.floats.head .anyTransfer, floats := s.floats.tail }) ∧
    (contended s.q = false → contended next = true → s.transport.head.delivers (firstFrameBytes i) = true →
      exec i s = .next { cut with
        adapter := framePins p next[0], sr := next, q := next,
        pulse := if eOf s.q = false ∧ withoutE s.q = withoutE next then .clean (withoutE next) else .dirty,
        log := s.log ++ (if s.adapter[5] then List.replicate s.floats.head .anyTransfer else []),
        floats := if s.adapter[5] then s.floats.tail else s.floats })

/-- spec/41_lcd_write_sequencer.md R86, R95, R96, R107, R117 and spec/60_exceptions.md R141 (D32; CacheMatches as there).
READ_CONTENTION has no other way: where an instruction leaves a fault, its first frame enables the outputs, and either
they held E and RW high before it, and its byte 0 was delivered (byte 1 too, where they floated), or all of it was
delivered and they hold E and RW high after it. No later frame and no bus write of the block itself is a way to it. That
the LCD transfer words are instructions, executed as BUS_WRITE is, is the model's choice: assumption log 6. -/
def Obligations.ContentionHasNoOtherWay : Prop :=
  ∀ (i : Instr) (s t : State), s.CacheMatches → exec i s = .next t → t.faults ≠ [] →
    ∃ p next, firstFrame i s = some (p, next) ∧ p[5] = false ∧
      (if contended s.q then s.transport.head.delivers (if s.adapter[5] then 2 else 1) = true
       else contended next = true ∧ s.transport.head.delivers (firstFrameBytes i) = true)

/-! The LCD's input pins. -/

/-- spec/41_lcd_write_sequencer.md R92. When E falls, PULSE is Clean(x) and the other bits still equal x, the LCD latches
Transfer(rs = x[8], rw = x[9], d = Unmap(x)). -/
def Obligations.CleanFallLatchesTransfer : Prop :=
  ∀ (a y x : Word) (s : State), eOf a = true → eOf y = false → s.pulse = .clean x → withoutE y = x →
    lcdStep (some a) (some y) s =
      { s with log := s.log ++ [.transfer (x.extractLsb' 8 1) (x.extractLsb' 9 1) (unmapWord s.params.dataHi x)],
               pulse := .idle }

/-- spec/41_lcd_write_sequencer.md R90, R91, R93, R95, R96 (the spec's decisions D31, D32). E rising with another bit, or
another bit changing while E is high, makes the pulse Dirty; E rising alone makes it Clean; E falling without a clean
pulse logs one AnyTransfer; outputs going off make it Dirty; driven again they log as many AnyTransfer events as are
drawn (the draws as a list in State: assumption log 3). A driven view with E and RW high, after a driven one, adds
READ_CONTENTION to the faults, and the edges are taken all the same (assumption log 9). -/
def Obligations.UncleanInputsAreUnknown : Prop :=
  ∀ (a y : Word) (s : State),
    (contended y = false →
      (eOf a = false → eOf y = true → withoutE a ≠ withoutE y →
        lcdStep (some a) (some y) s = { s with pulse := .dirty }) ∧
      (eOf a = false → eOf y = true → withoutE a = withoutE y →
        lcdStep (some a) (some y) s = { s with pulse := .clean (withoutE y) }) ∧
      (eOf a = true → eOf y = true → withoutE a ≠ withoutE y →
        lcdStep (some a) (some y) s = { s with pulse := .dirty }) ∧
      (eOf a = true → eOf y = false → s.pulse ≠ .clean (withoutE y) →
        lcdStep (some a) (some y) s = { s with log := s.log ++ [.anyTransfer], pulse := .idle })) ∧
    lcdStep (some a) none s = { s with pulse := .dirty } ∧
    lcdStep none (some y) s =
      { s with log := s.log ++ List.replicate s.floats.head .anyTransfer, floats := s.floats.tail,
               pulse := if eOf y then .dirty else .idle } ∧
    (contended y = true → .readContention ∉ s.faults →
      lcdStep (some a) (some y) s =
        { s with faults := s.faults ++ [.readContention],
                 pulse := if eOf a then (if withoutE a = withoutE y then s.pulse else .dirty)
                   else if withoutE a = withoutE y then .clean (withoutE y) else .dirty }) ∧
    (contended y = true → .readContention ∈ s.faults →
      (lcdStep (some a) (some y) s).faults = s.faults ∧ (lcdStep (some a) (some y) s).log = s.log)

/-- spec/10_state.md R26 and spec/41_lcd_write_sequencer.md R90 (the spec's decision D31). PULSE agrees with the LCD's
view after every step from a state where it does, failures and faults included. What PULSE is after a faulting byte is
the model's reading: assumption log 9. -/
def Obligations.PulseAgreesAfterEveryStep : Prop :=
  ∀ s t : State, s.PulseAgrees → step s = .next t → t.PulseAgrees

/-! Bus writes. -/

/-- spec/41_lcd_write_sequencer.md R85, R94 (derived there; D18). The clean-write guarantee: over ready inputs BUS_WRITE
completes and the LCD latches exactly one Transfer(rs, 0, b), before the last of the three Tx events; the word stands on
the chain, the inputs are ready again, and nothing else changes. -/
def Obligations.BusWriteLatchesItsTransfer : Prop :=
  ∀ (rs : Bit) (b : Byte) (s : State), s.Live → s.session ∈ admittedIn (.busWrite rs b) → s.LcdReady →
    s.params.dataHi.distinct = true → s.transport.oks 3 = true →
    let word := busWord s.params.dataHi rs b
    let t : State := { s with
      pins := framePins s.pins word[0], adapter := framePins s.pins word[0], sr := word, q := word,
      log := s.log ++ [.tx 66 true, .tx 66 true, .transfer rs 0 b, .tx 66 true], codes := s.codes ++ [.ok],
      transport := s.transport.skip 3 }
    exec (.busWrite rs b) s = .next t ∧ t.LcdReady

/-- spec/41_lcd_write_sequencer.md R98 to R105 and spec/30_encoding.md R55. An LCD transfer word is executed as the bus
write that emits it (assumption log 6); over ready inputs it completes, and the one event the LCD latches is of the
word's own class. -/
def Obligations.LcdWordsLatchTheirOwnClass : Prop :=
  ∀ (i : Instr) (word : BitVec 10) (s : State), encode i = .lcd word →
    exec i s = exec (.busWrite (word.extractLsb' 9 1) (word.extractLsb' 0 8)) s ∧
    (s.Live → s.session ∈ admittedIn i → s.LcdReady → s.params.dataHi.distinct = true → s.transport.oks 3 = true →
      ∃ t e, exec i s = .next t ∧ t.codes = s.codes ++ [.ok] ∧ lcdEvents t.log = lcdEvents s.log ++ [e] ∧
        e.lcdInstr = some i)

/-- spec/43_lcd_command_state_machine.md R118 (the spec's decisions D14, D15). INIT over ready inputs sends clear display,
function set, display control and, if asked for, the entry mode, in that order, with the registers' values as they
stand, and the session is Active; the registers do not change. -/
def Obligations.InitSendsItsCommands : Prop :=
  ∀ (withEntry : Bit) (s : State), s.Live → s.session ∈ admittedIn (.init withEntry) → s.LcdReady →
    s.params.dataHi.distinct = true → s.transport.oks (if withEntry = 1 then 12 else 9) = true →
    let writes := [(0, 0x01), (0, s.regFunction), (0, s.regDisplay)] ++ (if withEntry = 1 then [(0, s.regEntry)] else [])
    exec (.init withEntry) s =
      .next { s.afterWrites writes with session := .active, codes := s.codes ++ [.ok] }

/-- spec/43_lcd_command_state_machine.md R119 to R124 (the spec's decisions D12, D13, D37, D39). CLEAR_DISPLAY and the
four SET_ operations over ready inputs: the cached register takes the flags named and no other bit, one bus write sends
it, and nothing else changes. -/
def Obligations.RegisterCommandsSendOneWrite : Prop :=
  ∀ s : State, s.Live → s.session = .active → s.LcdReady → s.params.dataHi.distinct = true →
    s.transport.oks 3 = true →
    exec .clearDisplay s = .next { s.afterWrites [(0, 0x01)] with codes := s.codes ++ [.ok] } ∧
    (∀ id d, exec (.setEntryMode id d) s =
      .next { s.afterWrites [(0, entryWith s.regEntry id d)] with
        regEntry := entryWith s.regEntry id d, codes := s.codes ++ [.ok] }) ∧
    (∀ d cu b, exec (.setDisplay d cu b) s =
      .next { s.afterWrites [(0, displayWith s.regDisplay d cu b)] with
        regDisplay := displayWith s.regDisplay d cu b, codes := s.codes ++ [.ok] }) ∧
    (∀ sc rl, exec (.setShift sc rl) s =
      .next { s.afterWrites [(0, shiftWith s.regShift sc rl)] with
        regShift := shiftWith s.regShift sc rl, codes := s.codes ++ [.ok] }) ∧
    (∀ dl n f, exec (.setFunction dl n f) s =
      .next { s.afterWrites [(0, functionWith s.regFunction dl n f)] with
        regFunction := functionWith s.regFunction dl n f, codes := s.codes ++ [.ok] })

/-- spec/43_lcd_command_state_machine.md R125 to R127 (the spec's decisions D16, D17, D38, D42). WRITE_TEXT on line 1 or 2
over ready inputs: the line's DDRAM address, one data write for each byte the policy admits (all of a text of at most 16
bytes; of a longer one the first 16 under Truncate, all under Unlimited), and the display register with D set; nothing
else changes. -/
def Obligations.WriteTextSendsItsBytes : Prop :=
  ∀ (line : Nat) (text : List Byte) (s : State), s.Live → s.session = .active → s.LcdReady →
    s.params.dataHi.distinct = true → (line = 1 ∨ line = 2) →
    (text.length ≤ 16 ∨ s.params.textPolicy ≠ .reject) →
    let sent := if s.params.textPolicy = .truncate then text.take 16 else text
    s.transport.oks (3 * (sent.length + 2)) = true →
    exec (.writeText line text) s =
      .next { s.afterWrites ((0, if line = 1 then 0x80 else 0xC0) :: sent.map (fun ch => (1, ch)) ++
          [(0, s.regDisplay ||| 0x04)]) with
        regDisplay := s.regDisplay ||| 0x04, codes := s.codes ++ [.ok] }

/-- spec/43_lcd_command_state_machine.md R129, spec/41_lcd_write_sequencer.md R85 and spec/70_reset_and_hazards.md R160
(derived there; D6, D13, D31). An instruction made of bus writes completes in every pin state: with the outputs off, or
with clear held so that every frame latches 0, it makes the same three 66-byte transmissions for each write, and the
chain holds its last word or 0. With clear held over an idle LCD no transfer is latched. That the LCD transfer words are
instructions, admitted and executed as BUS_WRITE is, is the model's choice: assumption log 6. -/
def Obligations.BusWritesCompleteInEveryPinState : Prop :=
  ∀ (i : Instr) (s : State), s.Live → s.session ∈ admittedIn i → s.adapter = s.pins → busWritesOf s i ≠ [] →
    (∀ line text, i = .writeText line text → (line = 1 ∨ line = 2) ∧ text.length ≤ 16) →
    s.Uncontended s.pins 0 → s.transport.oks (3 * (busWritesOf s i).length) = true →
    ∃ t, exec i s = .next t ∧ t.codes = s.codes ++ [.ok] ∧ t.adapter = t.pins ∧ t.pins &&& 0xF2 = s.pins &&& 0xF2 ∧
      t.sr = t.q ∧
      t.q = (if s.pins[4] then
        ((busWritesOf s i).getLast?).elim 0 (fun w => busWord s.params.dataHi w.1 w.2) else 0) ∧
      txEvents t.log = txEvents s.log ++ List.replicate (3 * (busWritesOf s i).length) (.tx 66 true) ∧
      t.transport = s.transport.skip (3 * (busWritesOf s i).length) ∧ t.faults = [] ∧ t.refused = none ∧
      (s.pins[4] = false → s.PulseAgrees → eOf s.q = false → lcdEvents t.log = lcdEvents s.log)

/-! Side channels. -/

/-- spec/42_side_channels.md R106 to R108 (the spec's decisions D9, D43). SR_CLEAR completes wherever it is admitted: PINS
takes the level at CLR_N, one 34-byte frame of 0x00 sends it, the stage and the outputs move up by a byte or are 0 while
clear is held, and only the LCD side's two steps (byte 0 and the latch) may add to the log. -/
def Obligations.SrClearDrivesClear : Prop :=
  ∀ (level : Bit) (s : State), s.Live → s.session ∈ admittedIn (.srClear level) → s.Synced →
    s.transport.oks 1 = true →
    let p := (s.pins &&& 0xEF) ||| (if level = 1 then 0x10 else 0x00)
    let next : Word := if level = 1 then s.sr <<< 8 else 0
    s.Uncontended p next →
    let lcd := lcdStep (viewOf p s.q) (viewOf p next) (lcdStep s.view (viewOf p s.q) s)
    exec (.srClear level) s = .next { s with
      pins := (p &&& 0xF2) ||| 0x0C, adapter := (p &&& 0xF2) ||| 0x0C, sr := next, q := next, pulse := lcd.pulse,
      log := lcd.log ++ [.tx 34 true], floats := lcd.floats, codes := s.codes ++ [.ok],
      transport := s.transport.skip 1 }

/-- spec/42_side_channels.md R106, R107, R109 (D9, D43) and spec/10_state.md R25 (D6). SR_OE likewise, at OE_N. -/
def Obligations.SrOeDrivesOutputEnable : Prop :=
  ∀ (level : Bit) (s : State), s.Live → s.session ∈ admittedIn (.srOe level) → s.Synced →
    s.transport.oks 1 = true →
    let p := (s.pins &&& 0xDF) ||| (if level = 1 then 0x20 else 0x00)
    let next : Word := if s.pins[4] then s.sr <<< 8 else 0
    s.Uncontended p next →
    let lcd := lcdStep (viewOf p s.q) (viewOf p next) (lcdStep s.view (viewOf p s.q) s)
    exec (.srOe level) s = .next { s with
      pins := (p &&& 0xF2) ||| 0x0C, adapter := (p &&& 0xF2) ||| 0x0C, sr := next, q := next, pulse := lcd.pulse,
      log := lcd.log ++ [.tx 34 true], floats := lcd.floats, codes := s.codes ++ [.ok],
      transport := s.transport.skip 1 }

/-- spec/42_side_channels.md R106, R107, R110 (D9, D10, D43). BACKLIGHT likewise, at both backlight bits together. -/
def Obligations.BacklightDrivesBothBits : Prop :=
  ∀ (on : Bit) (s : State), s.Live → s.session ∈ admittedIn (.backlight on) → s.Synced →
    s.transport.oks 1 = true →
    let p := (s.pins &&& 0x3F) ||| (if on = 1 then 0xC0 else 0x00)
    let next : Word := if s.pins[4] then s.sr <<< 8 else 0
    s.Uncontended p next →
    let lcd := lcdStep (viewOf p s.q) (viewOf p next) (lcdStep s.view (viewOf p s.q) s)
    exec (.backlight on) s = .next { s with
      pins := (p &&& 0xF2) ||| 0x0C, adapter := (p &&& 0xF2) ||| 0x0C, sr := next, q := next, pulse := lcd.pulse,
      log := lcd.log ++ [.tx 34 true], floats := lcd.floats, codes := s.codes ++ [.ok],
      transport := s.transport.skip 1 }

/-- spec/42_side_channels.md R111, R112 (the spec's decision D29). BACKLIGHT_FOR 0 is BACKLIGHT 1, whatever that does. For
another duration it completes where both frames answer `ok`: the on-frame, the event Wait, and the off-frame, which ends
with both bits 0; the registers, the session, the marks and the parameters stay. -/
def Obligations.TimedBacklightWaitsAndSwitchesOff : Prop :=
  (∀ s : State, exec (.backlightFor 0) s = exec (.backlight 1) s) ∧
  ∀ (seconds : Nat) (s : State), seconds ≠ 0 → s.Live → s.session ∈ admittedIn (.backlightFor seconds) → s.Synced →
    s.transport.oks 2 = true → s.Uncontended s.pins (if s.pins[4] then s.sr <<< 8 else 0) →
    ∃ t on, exec (.backlight 1) s = .next on ∧ exec (.backlightFor seconds) s = .next t ∧
      t = { s with
        pins := (s.pins &&& 0x32) ||| 0x0C, adapter := (s.pins &&& 0x32) ||| 0x0C, sr := 0, q := 0, pulse := t.pulse,
        log := t.log, floats := on.floats, codes := s.codes ++ [.ok], transport := s.transport.skip 2 } ∧
      ∃ es, lcdEvents es = es ∧ t.log = on.log ++ [.wait seconds] ++ es ++ [.tx 34 true]

/-- spec/42_side_channels.md R107 and spec/70_reset_and_hazards.md R164 (derived there; D9). A backlight frame after a bus
write, whose word has bit 2 clear, raises no E and causes no transfer: over ready inputs it leaves the inputs ready and
adds only its Tx event. The default data-pin map keeps that bit clear; a map with a data line at 2 does not, and that such
a map is followed is the model's choice (assumption log 21). -/
def Obligations.SideFrameCausesNoTransfer : Prop :=
  ∀ (on : Bit) (s : State), s.Live → s.session ∈ admittedIn (.backlight on) → s.LcdReady → s.sr[2] = false →
    s.transport.oks 1 = true →
    ∃ t, exec (.backlight on) s = .next t ∧ t.log = s.log ++ [.tx 34 true] ∧ t.LcdReady ∧ t.q = s.sr <<< 8

/-- spec/42_side_channels.md R113 and spec/10_state.md R14 (derived there; D2). While a session has not failed or ended,
bit 1 of PINS is 0 and the two backlight bits agree: every step keeps it so. That a fault leaves PINS as before the
frame is the model's reading: assumption log 8. -/
def Obligations.PinsStaySoundAfterEveryStep : Prop :=
  ∀ s t : State, s.PinsSound → step s = .next t → t.PinsSound

/-! The session. -/

/-- spec/43_lcd_command_state_machine.md R116, R117 (derived there; D44). CONFIGURE from an uninitialized session, over any
chain whose driven outputs do not hold E and RW high at once (those that do: ContentionIsRecordedOnEveryWay): three
34-byte frames, SR = Q = 0, CLR_N = 1, OE_N = 0, the other pins kept, the session Configured, everything else as it was
but the LCD side. If PULSE agreed with the view it is Idle at the end; if the inputs were driven with E
low and the pulse idle, nothing but the three Tx events is logged. -/
def Obligations.ConfigureBringsUpTheChain : Prop :=
  ∀ s : State, s.Live → s.session = .uninitialized → s.Synced → s.transport.oks 3 = true → s.Uncontended s.pins 0 →
    ∃ t, exec .configure s = .next t ∧
      t = { s with
        pins := (s.pins &&& 0xC2) ||| 0x1C, adapter := (s.pins &&& 0xC2) ||| 0x1C, sr := 0, q := 0,
        session := .configured, pulse := t.pulse, log := t.log, floats := t.floats, codes := s.codes ++ [.ok],
        transport := s.transport.skip 3 } ∧
      txEvents t.log = txEvents s.log ++ [.tx 34 true, .tx 34 true, .tx 34 true] ∧
      (s.PulseAgrees → t.LcdReady) ∧
      (s.adapter[5] = false → s.pins[5] = false → eOf s.q = false → s.pulse = .idle →
        t.log = s.log ++ [.tx 34 true, .tx 34 true, .tx 34 true] ∧ t.floats = s.floats ∧ t.LcdReady)

/-- spec/43_lcd_command_state_machine.md R128 and spec/60_exceptions.md R151 (the spec's decision D33). SESSION_END in
every state but Ended sends nothing, and ADAPTER, SR, Q, the log and all else but the session and the codes stay: a lit
backlight stays lit. That the fields for PINS and the registers, which the spec discards, keep their values is the
model's choice: assumption log 12. -/
def Obligations.SessionEndLeavesThePins : Prop :=
  ∀ s : State, s.Live → s.session ≠ .ended →
    exec .sessionEnd s = .next { s with session := .ended, codes := s.codes ++ [.ok] }

/-- spec/43_lcd_command_state_machine.md R114 (the spec's decisions D21, D22). The transitions are exactly these: only a
CONFIGURE, an INIT, a failed transmission or a SESSION_END changes the session, each along its own row of the table.
That the LCD transfer words are instructions, admitted and executed as BUS_WRITE is, is the model's choice: assumption
log 6. -/
def Obligations.SessionFollowsItsTransitions : Prop :=
  ∀ (i : Instr) (s t : State), exec i s = .next t → t.session ≠ s.session →
    (i = .configure ∧ s.session = .uninitialized ∧ t.session = .configured) ∨
    (∃ e, i = .init e ∧ s.session = .configured ∧ t.session = .active) ∨
    (i = .sessionEnd ∧ s.session ≠ .ended ∧ t.session = .ended) ∨
    (t.session = .failed ∧ (s.session = .uninitialized ∨ s.session = .configured ∨ s.session = .active) ∧
      ∃ text, t.codes = s.codes ++ [.transmissionFailed text])

/-! Errors, refusals and faults. -/

/-- spec/60_exceptions.md R135. BAD_LINE is raised by WRITE_TEXT before any transmission and no state changes, the session
included, so the caller may go on. -/
def Obligations.BadLineChangesNothing : Prop :=
  ∀ (line : Nat) (text : List Byte) (s : State), s.Live → s.session = .active → line ≠ 1 → line ≠ 2 →
    exec (.writeText line text) s = .next { s with codes := s.codes ++ [.badLine] }

/-- spec/60_exceptions.md R136 (the spec's decision D16). TEXT_TOO_LONG is raised by WRITE_TEXT under Reject for more than
16 bytes, before any transmission, with no state change; under the other policies it never occurs. -/
def Obligations.TextTooLongChangesNothing : Prop :=
  ∀ (line : Nat) (text : List Byte) (s : State), s.Live → s.session = .active → (line = 1 ∨ line = 2) →
    (16 < text.length → s.params.textPolicy = .reject →
      exec (.writeText line text) s = .next { s with codes := s.codes ++ [.textTooLong] }) ∧
    (s.params.textPolicy ≠ .reject → ∀ t, exec (.writeText line text) s = .next t →
      t.codes ≠ s.codes ++ [.textTooLong])

/-- spec/60_exceptions.md R133, R134, R138 (the spec's decisions D22, D23, D37). When an operation leaves the session
Failed, its last event is the failed transmission, every transmission before it answered `ok`, the code with the
adapter's text is the one code it returned, and neither mark is set. That the LCD transfer words are instructions,
admitted and executed as BUS_WRITE is, is the model's choice: assumption log 6. -/
def Obligations.FailureEndsTheOperation : Prop :=
  ∀ (i : Instr) (s t : State), exec i s = .next t → s.session ≠ .failed → t.session = .failed →
    t.faults = [] ∧ t.refused = none ∧ (∃ text, t.codes = s.codes ++ [.transmissionFailed text]) ∧
    ∃ es n, t.log = s.log ++ es ++ [.tx n false] ∧ ∀ k, .tx k false ∉ es

/-- spec/60_exceptions.md R133, R134 and spec/93_implementation_defined.md I2, I3 (D23, D36, D37). An operation whose
first transmission fails with no byte delivered leaves the chain and the LCD side alone, PINS unknown, the session
Failed and the code with the adapter's text; a SET_ operation's register keeps its new value. That the LCD transfer
words are instructions, admitted and executed as BUS_WRITE is, is the model's choice: assumption log 6. -/
def Obligations.FirstTransmissionFails : Prop :=
  ∀ (i : Instr) (pins : Byte) (text : List Byte) (s : State), s.Live → s.session ∈ admittedIn i →
    s.transport.head = .fail 0 pins text → i ≠ .sessionEnd →
    (∀ line t, i = .writeText line t → (line = 1 ∨ line = 2) ∧ t.length ≤ 16) →
    exec i s = .next { s with
      pins := pins, session := .failed, log := s.log ++ [.tx (firstFrameBytes i) false],
      codes := s.codes ++ [.transmissionFailed text],
      transport := s.transport.tail,
      regEntry := (match i with | .setEntryMode id d => entryWith s.regEntry id d | _ => s.regEntry),
      regDisplay := (match i with | .setDisplay d cu b => displayWith s.regDisplay d cu b | _ => s.regDisplay),
      regShift := (match i with | .setShift sc rl => shiftWith s.regShift sc rl | _ => s.regShift),
      regFunction := (match i with | .setFunction dl n f => functionWith s.regFunction dl n f | _ => s.regFunction) }

/-- spec/41_lcd_write_sequencer.md R89 and spec/60_exceptions.md R133 (D22, D23; vectors V12 and V13). The enable-high
phase of a bus write fails after `m` bytes: phase 3 is not sent and no transfer is latched. Before the latch byte the
outputs hold the phase 1 word with the pulse Idle; from it on E is held high and PULSE is Clean with the word. A draw m
over 66 stands for all bytes: assumption log 2. -/
def Obligations.EnablePhaseFails : Prop :=
  ∀ (rs : Bit) (b : Byte) (m : Nat) (pins : Byte) (text : List Byte) (s : State), s.Live →
    s.session ∈ admittedIn (.busWrite rs b) → s.LcdReady → s.transport.head = .ok →
    s.transport.tail.head = .fail m pins text →
    let word := busWord s.params.dataHi rs b
    ∃ t, exec (.busWrite rs b) s = .next t ∧ t.session = .failed ∧ t.pins = pins ∧
      t.codes = s.codes ++ [.transmissionFailed text] ∧ t.log = s.log ++ [.tx 66 true, .tx 66 false] ∧
      t.q = (if m < 66 then word else word ||| 0x0400) ∧ t.pulse = (if m < 66 then .idle else .clean word)

/-- spec/60_exceptions.md R134, spec/40_shift_loader.md R71 and spec/93_implementation_defined.md I4 (how many bytes the
silent transmission delivers, a draw of the model's, and the fault's name: assumption log 11). An admitted operation whose
first transmission never answers is stuck: the delivered bytes change the chain and the LCD side alone, nothing of what
R71 does after the answer is done (no Tx event, no code, PINS as before the frame, the session as it was), and no step
follows. The outputs change with the frame's last byte only. If a delivered byte records READ_CONTENTION, that fault ends
the operation there (R142; log 8). That the LCD transfer words are instructions, admitted and executed as BUS_WRITE is, is
the model's choice: log 6. -/
def Obligations.SilentTransportStopsTheCore : Prop :=
  ∀ (i : Instr) (p : Byte) (next : Word) (m : Nat) (s : State), s.Live → s.session ∈ admittedIn i →
    (∀ line t, i = .writeText line t → (line = 1 ∨ line = 2) ∧ (t.length ≤ 16 ∨ s.params.textPolicy ≠ .reject)) →
    firstFrame i s = some (p, next) → s.transport.head = .never m →
    ∃ t, exec i s = .next t ∧
      t = { s.withRegistersOf i with
        pins := p, adapter := t.adapter, sr := t.sr, q := t.q, pulse := t.pulse, log := t.log, faults := t.faults,
        stuck := t.faults.isEmpty, transport := s.transport.tail, floats := t.floats } ∧
      txEvents t.log = txEvents s.log ∧
      (m = 0 → t = { s.withRegistersOf i with pins := p, stuck := true, transport := s.transport.tail }) ∧
      (t.faults = [] →
        (m < firstFrameBytes i → t.q = s.q) ∧ (s.CacheMatches → firstFrameBytes i ≤ m → t.q = next) ∧
        step t = .fault .transportNeverAnswers ∧ ∀ j, exec j t = .fault .transportNeverAnswers)

/-- spec/41_lcd_write_sequencer.md R85, R92, spec/60_exceptions.md R134 and spec/70_reset_and_hazards.md R167 (D18, D23). A
bus write over ready inputs that is stuck in its second or third transmission: the frames answered `ok` before it stand,
with their Tx events, in the LOG and on the chain that R167 observes. The silent frame's `m` bytes stand too (the number
is the model's draw: assumption log 11; over 66 for all: log 2): before its last byte the outputs hold the phase before,
from it on the silent phase, and where E falls the transfer is latched. -/
def Obligations.SilentPhaseKeepsTheFramesBefore : Prop :=
  ∀ (rs : Bit) (b : Byte) (m : Nat) (s : State), s.Live → s.session ∈ admittedIn (.busWrite rs b) → s.LcdReady →
    s.params.dataHi.distinct = true →
    let word := busWord s.params.dataHi rs b
    (s.transport.oks 1 = true → (s.transport.skip 1).head = .never m →
      ∃ t, exec (.busWrite rs b) s = .next t ∧
        t = { s with
          pins := framePins s.pins word[0], adapter := t.adapter, sr := t.sr,
          q := if m < 66 then word else word ||| 0x0400, pulse := if m < 66 then .idle else .clean word,
          log := s.log ++ [.tx 66 true], stuck := true, transport := s.transport.skip 2 }) ∧
    (s.transport.oks 2 = true → (s.transport.skip 2).head = .never m →
      ∃ t, exec (.busWrite rs b) s = .next t ∧
        t = { s with
          pins := framePins s.pins word[0], adapter := t.adapter, sr := t.sr,
          q := if m < 66 then word ||| 0x0400 else word, pulse := if m < 66 then .clean word else .idle,
          log := s.log ++ [.tx 66 true, .tx 66 true] ++ (if m < 66 then [] else [.transfer rs 0 b]),
          stuck := true, transport := s.transport.skip 3 })

/-- spec/60_exceptions.md R133, R134 and spec/70_reset_and_hazards.md R167 (D22, D23). Whatever the operation and whichever
of its transmissions it is, one that never answers leaves what one that fails with as many bytes delivered leaves: the
frames before it in full, its own bytes, and what the operation did in between. What the answer would have brought is
missing: no Tx event of it, no code, PINS as cached, the session as it was; the run is stuck instead. The number of bytes
of a silent transmission is the model's draw: assumption log 11. That the LCD transfer words are instructions, executed as
BUS_WRITE is, is the model's choice: log 6. -/
def Obligations.SilentTransmissionLeavesWhatAFailedOneDoes : Prop :=
  ∀ (i : Instr) (k m : Nat) (pins : Byte) (text : List Byte) (d : Draws Answer) (s t : State), s.session ≠ .failed →
    exec i { s with transport := Draws.oksThen k (.fail m pins text) d } = .next t → t.session = .failed →
    ∃ p, exec i { s with transport := Draws.oksThen k (.never m) d } =
      .next { t with pins := p, session := s.session, stuck := true, log := t.log.dropLast, codes := s.codes }

/-- spec/43_lcd_command_state_machine.md R115 and spec/60_exceptions.md R139, R142 (the spec's decisions D21, D25). An
instruction that the table does not admit is refused WRONG_STATE, whatever its operands: the mark is set and nothing
else changes. One that the table admits is not refused. That the LCD transfer words are instructions, admitted and
executed as BUS_WRITE is, is the model's choice: assumption log 6. -/
def Obligations.AdmissionTableDecides : Prop :=
  ∀ (i : Instr) (s : State), s.Live →
    (s.session ∉ admittedIn i → exec i s = .next { s with refused := some .wrongState }) ∧
    (s.session ∈ admittedIn i → ∀ t, exec i s = .next t → t.refused = none)

/-- spec/60_exceptions.md R134, R139, R141 (the spec's decisions D20, D21, D32). From a state with a sticky fault or the
REFUSED mark, and from a stuck one, there is no further step, and no instruction executes. The names of the stops:
assumption log 10 and 11. -/
def Obligations.StickyMarksEndTheRun : Prop :=
  ∀ (s : State),
    (∀ r l, s.faults = r :: l → step s = .fault (.sticky r) ∧ ∀ i, exec i s = .fault (.sticky r)) ∧
    (∀ r, s.faults = [] → s.refused = some r →
      step s = .refused (.sticky r) ∧ ∀ i, exec i s = .refused (.sticky r)) ∧
    (s.faults = [] → s.refused = none → s.stuck = true →
      step s = .fault .transportNeverAnswers ∧ ∀ i, exec i s = .fault .transportNeverAnswers)

/-! The step. -/

/-- spec/00_scope.md R6 and spec/10_state.md R31 (assumption log 5 and 20). A step executes the oldest issued operation,
decoded, from the state with that operation taken off the queue; with none issued the block waits (R153). -/
def Obligations.StepRunsTheIssuedInstruction : Prop :=
  ∀ s : State, s.Live →
    (s.pending = [] → step s = .next s) ∧
    (∀ request rest i, s.pending = .operation request false :: rest → decode request = .ok i →
      step s = exec i { s with pending := rest })

/-- spec/30_encoding.md R61, spec/60_exceptions.md R139, R140, R142 (the spec's decisions D20, D25, D27). An issued word that
is no instruction is refused ILLEGAL_COMMAND in every session state, one issued too early is refused CONCURRENT_ISSUE,
and neither changes anything but the mark and the queue. The queue is the model's (assumption log 5), so is the place of
the check for a too-early issue (assumption log 13), and that an LCD transfer word with RW = 1 or with no bit set is
refused too, of which R61 does not speak (assumption log 6). -/
def Obligations.BadIssuesAreRefused : Prop :=
  ∀ (s : State) (request : Request) (rest : List Issue), s.Live →
    (s.pending = .operation request false :: rest → (∀ i, decode request ≠ .ok i) →
      step s = .next { s with pending := rest, refused := some .illegalCommand }) ∧
    (s.pending = .operation request true :: rest →
      step s = .next { s with pending := rest, refused := some .concurrentIssue })

/-- spec/60_exceptions.md R149, R139, R152 and spec/93_implementation_defined.md I16 (the spec's decision D27; the refusal's
name and the open as an issue: assumption log 5 and 19). Opening the adapter again before SESSION_END is refused: the
mark is set, nothing else changes, and no step follows. After SESSION_END it leaves this run as it ended. -/
def Obligations.SecondSessionIsRefused : Prop :=
  ∀ (s : State) (rest : List Issue), s.Live → s.pending = .openAdapter :: rest →
    (s.session ≠ .ended → ∃ t, step s = .next t ∧ t = { s with pending := rest, refused := some .secondSession } ∧
      step t = .refused (.sticky .secondSession)) ∧
    (s.session = .ended → step s = .next { s with pending := rest })

/-- spec/10_state.md R28, R30 (D35) and spec/60_exceptions.md R130 (the codes: assumption log 15). A step never shortens
the log, returns at most one code, never touches the parameters, and takes at most one operation off the queue. -/
def Obligations.StepOnlyAddsToTheRecord : Prop :=
  ∀ s t : State, step s = .next t →
    (∃ es, t.log = s.log ++ es) ∧ (t.codes = s.codes ∨ ∃ r, t.codes = s.codes ++ [r]) ∧
    t.params = s.params ∧ (t.pending = s.pending ∨ t.pending = s.pending.tail)

/-- spec/10_state.md R16 (the spec's decision D23). In a configured or active session without a fault, and with no
transmission that never answers, the cache is what the adapter drives: every step keeps it so. -/
def Obligations.CacheMatchesAfterEveryStep : Prop :=
  ∀ s t : State, s.CacheMatches → step s = .next t → t.CacheMatches

/-- spec/10_state.md R17 to R21 (the spec's decisions D11, D12). No step changes a bit of the four LCD registers that is
not one of their ten flags. -/
def Obligations.RegistersKeepFixedBits : Prop :=
  ∀ s t : State, s.RegistersFixed → step s = .next t → t.RegistersFixed

/-- spec/70_reset_and_hazards.md R153 to R155 and spec/10_state.md R33 (the spec's decisions D11, D30). At every session
start, whatever the draws, with well-formed parameters, the invariants hold; reset is such a start. -/
def Obligations.InvariantsHoldAtStart : Prop :=
  (∀ (p : Params) (a0 : Byte) (sr q : Word) (transport : Draws Answer) (floats : Draws Nat), p.wellFormed = true →
    let s := State.start p a0 sr q transport floats
    s.Live ∧ s.PulseAgrees ∧ s.PinsSound ∧ s.CacheMatches ∧ s.RegistersFixed ∧
      (s.pulse = .idle ↔ CleanStart a0 q)) ∧
  State.reset.Live ∧ State.reset.PulseAgrees ∧ State.reset.PinsSound ∧ State.reset.CacheMatches ∧
    State.reset.RegistersFixed

/-- spec/10_state.md R15, spec/40_shift_loader.md R74 and spec/60_exceptions.md R134. PINS is 0x00 at session start, so
CLR_N = 0 and OE_N = 0 in it; until the first byte is transmitted ADAPTER is the draw A0. The first byte of the first
operation drives both low on the adapter, but for SR_CLEAR 1, which changes CLR_N in PINS before its frame, and SR_OE 1,
which changes OE_N; so it is even where the transmission fails after that byte. PINS does not outlive its session: a
session that `openSession` gives starts at 0x00 again (openSession is the model's choice: assumption log 19, 22). -/
def Obligations.PinsStartAtZero : Prop :=
  ∀ (p : Params) (a0 : Byte) (sr q : Word) (transport : Draws Answer) (floats : Draws Nat),
    let s := State.start p a0 sr q transport floats
    s.pins = 0x00 ∧ s.pins[4] = false ∧ s.pins[5] = false ∧ s.adapter = a0 ∧
    (∀ (w : Nat) (v : BitVec w), (deliver ((encodeFrame s.pins v).1.take 1) s).adapter[4] = false ∧
      (deliver ((encodeFrame s.pins v).1.take 1) s).adapter[5] = false) ∧
    (∀ (i : Instr) (pins : Byte) (text : List Byte), s.session ∈ admittedIn i → i ≠ .sessionEnd →
      transport.head = .fail 1 pins text →
      ∃ t, exec i s = .next t ∧ t.adapter[4] = decide (i = .srClear 1) ∧ t.adapter[5] = decide (i = .srOe 1)) ∧
    ∀ (p' : Params) (t u : State), openSession true p' t = .session u → u.pins = 0x00

/-- spec/60_exceptions.md R132, R149, R151 and spec/70_reset_and_hazards.md R154, R155, R162 (the spec's decisions D27, D30,
D40; openSession is the model's choice: assumption log 19). While a session has not ended a second one on its adapter is
refused, with the mark set and no step after it. Once SESSION_END is taken a failed open gives its code, and an open that
succeeds starts a session over the levels, stage and outputs as the old one left them: PULSE is Idle exactly where that
is a clean start, the cache is 0x00, nothing is logged. After a run with a sticky fault or the REFUSED mark, or a
stuck one, there is no new session (assumption log 22). -/
def Obligations.NewSessionStartsOverTheChain : Prop :=
  ∀ (p : Params) (s : State),
    (s.Live → s.session ≠ .ended →
      (∀ opened, ∃ r, openSession opened p s = .stopped r ∧ r = { s with refused := some .secondSession } ∧
        step r = .refused (.sticky .secondSession)) ∧
      ∃ t u, exec .sessionEnd s = .next t ∧ openSession false p t = .failed .adapterOpenFailed ∧
        openSession true p t = .session u ∧ u.adapter = s.adapter ∧ u.sr = s.sr ∧ u.q = s.q ∧ u.pins = 0x00 ∧
        u.session = .uninitialized ∧ u.log = [] ∧ u.codes = [] ∧ u.Live ∧ u.PulseAgrees ∧
        (u.pulse = .idle ↔ CleanStart s.adapter s.q)) ∧
    (¬ s.Live → ∀ opened, openSession opened p s = .stopped s)

/-- spec/43_lcd_command_state_machine.md R116 to R118 and spec/70_reset_and_hazards.md R155, R156 (derived there; the
document's bring-up, vectors P1, P3 and P6). From every session start with a clean start, CONFIGURE and then INIT leave
the log with exactly the transfers 0x01, function set, display control and, if asked for, entry mode, no AnyTransfer, and
a ready, active session; a SESSION_END then ends the run well (R167). -/
def Obligations.BringUpLogsExactlyItsTransfers : Prop :=
  ∀ (p : Params) (a0 : Byte) (sr q : Word) (transport : Draws Answer) (floats : Draws Nat) (withEntry : Bit),
    p.wellFormed = true → CleanStart a0 q → transport.oks (if withEntry = 1 then 15 else 12) = true →
    ∃ u t, exec .configure (State.start p a0 sr q transport floats) = .next u ∧ exec (.init withEntry) u = .next t ∧
      lcdEvents t.log =
        [.transfer 0 0 0x01, .transfer 0 0 p.seedFunction, .transfer 0 0 p.seedDisplay] ++
          (if withEntry = 1 then [.transfer 0 0 p.seedEntry] else []) ∧
      t.session = .active ∧ t.LcdReady ∧ t.codes = [.ok, .ok] ∧
      ∃ e, exec .sessionEnd t = .next e ∧ e.GoodEnd

/-- spec/60_exceptions.md R146, R148 and spec/40_shift_loader.md R79. What the LCD may latch does not depend on the
backlight: from two states that are alike but for the backlight bits of PINS and ADAPTER, every instruction, BACKLIGHT
and BACKLIGHT_FOR included, and so every step, leads to states that are alike in the same way, or stops both times with
the same fault or refusal. That the LCD transfer words are instructions, admitted and executed as BUS_WRITE is, is the
model's choice: assumption log 6; the queue a step reads: assumption log 5. -/
def Obligations.BacklightDoesNotReachTheLcd : Prop :=
  ∀ s s' : State, s.AlikeButBacklight s' →
    (∀ (i : Instr) (t : State), exec i s = .next t → ∃ t', exec i s' = .next t' ∧ t.AlikeButBacklight t') ∧
    (∀ t : State, step s = .next t → ∃ t', step s' = .next t' ∧ t.AlikeButBacklight t') ∧
    (∀ f, step s = .fault f → step s' = .fault f) ∧ (∀ r, step s = .refused r → step s' = .refused r)
end

