-- ==== Sys2Proof/Laws/Encode.lean ====
section
/-! SUPPORT. The serial frame: its bits and its pins (spec/40_shift_loader.md section 1). -/

namespace Sys2Proof.Machine

variable {w : Nat}

@[simp] theorem bitsDown_zero (v : BitVec w) : bitsDown v 0 = [] := rfl

@[simp] theorem bitsDown_succ (v : BitVec w) (n : Nat) : bitsDown v (n + 1) = v.getLsbD n :: bitsDown v n := rfl

@[simp] theorem bitsDown_length (v : BitVec w) (n : Nat) : (bitsDown v n).length = n := by
  induction n with
  | zero => rfl
  | succ n ih => simp [ih]

/-- The last bit of a word sent whole is its bit 0. -/
theorem bitsDown_getLast? (v : BitVec w) (n : Nat) : (bitsDown v (n + 1)).getLast? = some (v.getLsbD 0) := by
  induction n with
  | zero => rfl
  | succ n ih => rw [bitsDown_succ, List.getLast?_cons, ih]; rfl

@[simp] theorem clockBits_nil (p : Byte) : clockBits p [] = ([], p) := rfl

theorem clockBits_cons (p : Byte) (d : Bool) (ds : List Bool) :
    clockBits p (d :: ds) =
      (srclkLow p :: withSer (srclkLow p) d :: srclkHigh (withSer (srclkLow p) d) ::
          srclkHigh (withSer (srclkLow p) d) :: (clockBits (srclkHigh (withSer (srclkLow p) d)) ds).1,
        (clockBits (srclkHigh (withSer (srclkLow p) d)) ds).2) := rfl

/-- Each bit takes four bytes. -/
theorem clockBits_length (p : Byte) (ds : List Bool) : (clockBits p ds).1.length = 4 * ds.length := by
  induction ds generalizing p with
  | nil => rfl
  | cons d ds ih => simp [clockBits_cons, ih]; omega

/-- The pins after the clocked bits: SRCLK high and SER at the last bit, all else as it was. -/
theorem clockBits_pins (p : Byte) (ds : List Bool) (d : Bool) :
    (clockBits p (ds ++ [d])).2 = srclkHigh (withSer p d) := by
  induction ds generalizing p with
  | nil =>
    simp only [List.nil_append, clockBits_cons, clockBits_nil]
    revert p d
    decide
  | cons e ds ih =>
    simp only [List.cons_append, clockBits_cons, ih]
    clear ih
    revert p d e
    decide

/-- Every byte of the clocked bits keeps the pins other than SER and SRCLK. -/
theorem clockBits_keeps (p : Byte) (ds : List Bool) : ∀ b ∈ (clockBits p ds).1, b &&& 0xF6 = p &&& 0xF6 := by
  induction ds generalizing p with
  | nil => simp
  | cons d ds ih =>
    have h1 : srclkLow p &&& 0xF6 = p &&& 0xF6 := by revert p; decide
    have h2 : withSer (srclkLow p) d &&& 0xF6 = p &&& 0xF6 := by revert p d; decide
    have h3 : srclkHigh (withSer (srclkLow p) d) &&& 0xF6 = p &&& 0xF6 := by revert p d; decide
    intro b hb
    simp only [clockBits_cons, List.mem_cons] at hb
    rcases hb with rfl | rfl | rfl | rfl | hb
    · exact h1
    · exact h2
    · exact h3
    · exact h3
    · rw [ih _ b hb, h3]

/-- The new pins of a frame: its last byte. -/
theorem encodeFrame_getLast? (p : Byte) (v : BitVec w) :
    (encodeFrame p v).1.getLast? = some (encodeFrame p v).2 := by
  simp [encodeFrame, List.getLast?_cons]

end Sys2Proof.Machine
end

