-- ==== Sys2Proof/Laws/State.lean ====
section
/-! SUPPORT. What each named update does to each field of the state. -/

namespace Sys2Proof.Machine.State

variable (s : State)

@[simp] theorem setPins_pins (p : Byte) : (s.setPins p).pins = p := rfl
@[simp] theorem setPins_regEntry (p : Byte) : (s.setPins p).regEntry = s.regEntry := rfl
@[simp] theorem setPins_regDisplay (p : Byte) : (s.setPins p).regDisplay = s.regDisplay := rfl
@[simp] theorem setPins_regShift (p : Byte) : (s.setPins p).regShift = s.regShift := rfl
@[simp] theorem setPins_regFunction (p : Byte) : (s.setPins p).regFunction = s.regFunction := rfl
@[simp] theorem setPins_session (p : Byte) : (s.setPins p).session = s.session := rfl
@[simp] theorem setPins_adapter (p : Byte) : (s.setPins p).adapter = s.adapter := rfl
@[simp] theorem setPins_sr (p : Byte) : (s.setPins p).sr = s.sr := rfl
@[simp] theorem setPins_q (p : Byte) : (s.setPins p).q = s.q := rfl
@[simp] theorem setPins_pulse (p : Byte) : (s.setPins p).pulse = s.pulse := rfl
@[simp] theorem setPins_log (p : Byte) : (s.setPins p).log = s.log := rfl
@[simp] theorem setPins_faults (p : Byte) : (s.setPins p).faults = s.faults := rfl
@[simp] theorem setPins_refused (p : Byte) : (s.setPins p).refused = s.refused := rfl
@[simp] theorem setPins_stuck (p : Byte) : (s.setPins p).stuck = s.stuck := rfl
@[simp] theorem setPins_codes (p : Byte) : (s.setPins p).codes = s.codes := rfl
@[simp] theorem setPins_transport (p : Byte) : (s.setPins p).transport = s.transport := rfl
@[simp] theorem setPins_floats (p : Byte) : (s.setPins p).floats = s.floats := rfl
@[simp] theorem setPins_params (p : Byte) : (s.setPins p).params = s.params := rfl
@[simp] theorem setPins_pending (p : Byte) : (s.setPins p).pending = s.pending := rfl
@[simp] theorem setPins_view (p : Byte) : (s.setPins p).view = s.view := rfl

@[simp] theorem setEntry_pins (r : Byte) : (s.setEntry r).pins = s.pins := rfl
@[simp] theorem setEntry_regEntry (r : Byte) : (s.setEntry r).regEntry = r := rfl
@[simp] theorem setEntry_regDisplay (r : Byte) : (s.setEntry r).regDisplay = s.regDisplay := rfl
@[simp] theorem setEntry_regShift (r : Byte) : (s.setEntry r).regShift = s.regShift := rfl
@[simp] theorem setEntry_regFunction (r : Byte) : (s.setEntry r).regFunction = s.regFunction := rfl
@[simp] theorem setEntry_session (r : Byte) : (s.setEntry r).session = s.session := rfl
@[simp] theorem setEntry_adapter (r : Byte) : (s.setEntry r).adapter = s.adapter := rfl
@[simp] theorem setEntry_sr (r : Byte) : (s.setEntry r).sr = s.sr := rfl
@[simp] theorem setEntry_q (r : Byte) : (s.setEntry r).q = s.q := rfl
@[simp] theorem setEntry_pulse (r : Byte) : (s.setEntry r).pulse = s.pulse := rfl
@[simp] theorem setEntry_log (r : Byte) : (s.setEntry r).log = s.log := rfl
@[simp] theorem setEntry_faults (r : Byte) : (s.setEntry r).faults = s.faults := rfl
@[simp] theorem setEntry_refused (r : Byte) : (s.setEntry r).refused = s.refused := rfl
@[simp] theorem setEntry_stuck (r : Byte) : (s.setEntry r).stuck = s.stuck := rfl
@[simp] theorem setEntry_codes (r : Byte) : (s.setEntry r).codes = s.codes := rfl
@[simp] theorem setEntry_transport (r : Byte) : (s.setEntry r).transport = s.transport := rfl
@[simp] theorem setEntry_floats (r : Byte) : (s.setEntry r).floats = s.floats := rfl
@[simp] theorem setEntry_params (r : Byte) : (s.setEntry r).params = s.params := rfl
@[simp] theorem setEntry_pending (r : Byte) : (s.setEntry r).pending = s.pending := rfl
@[simp] theorem setEntry_view (r : Byte) : (s.setEntry r).view = s.view := rfl

@[simp] theorem setDisplay_pins (r : Byte) : (s.setDisplay r).pins = s.pins := rfl
@[simp] theorem setDisplay_regEntry (r : Byte) : (s.setDisplay r).regEntry = s.regEntry := rfl
@[simp] theorem setDisplay_regDisplay (r : Byte) : (s.setDisplay r).regDisplay = r := rfl
@[simp] theorem setDisplay_regShift (r : Byte) : (s.setDisplay r).regShift = s.regShift := rfl
@[simp] theorem setDisplay_regFunction (r : Byte) : (s.setDisplay r).regFunction = s.regFunction := rfl
@[simp] theorem setDisplay_session (r : Byte) : (s.setDisplay r).session = s.session := rfl
@[simp] theorem setDisplay_adapter (r : Byte) : (s.setDisplay r).adapter = s.adapter := rfl
@[simp] theorem setDisplay_sr (r : Byte) : (s.setDisplay r).sr = s.sr := rfl
@[simp] theorem setDisplay_q (r : Byte) : (s.setDisplay r).q = s.q := rfl
@[simp] theorem setDisplay_pulse (r : Byte) : (s.setDisplay r).pulse = s.pulse := rfl
@[simp] theorem setDisplay_log (r : Byte) : (s.setDisplay r).log = s.log := rfl
@[simp] theorem setDisplay_faults (r : Byte) : (s.setDisplay r).faults = s.faults := rfl
@[simp] theorem setDisplay_refused (r : Byte) : (s.setDisplay r).refused = s.refused := rfl
@[simp] theorem setDisplay_stuck (r : Byte) : (s.setDisplay r).stuck = s.stuck := rfl
@[simp] theorem setDisplay_codes (r : Byte) : (s.setDisplay r).codes = s.codes := rfl
@[simp] theorem setDisplay_transport (r : Byte) : (s.setDisplay r).transport = s.transport := rfl
@[simp] theorem setDisplay_floats (r : Byte) : (s.setDisplay r).floats = s.floats := rfl
@[simp] theorem setDisplay_params (r : Byte) : (s.setDisplay r).params = s.params := rfl
@[simp] theorem setDisplay_pending (r : Byte) : (s.setDisplay r).pending = s.pending := rfl
@[simp] theorem setDisplay_view (r : Byte) : (s.setDisplay r).view = s.view := rfl

@[simp] theorem setShift_pins (r : Byte) : (s.setShift r).pins = s.pins := rfl
@[simp] theorem setShift_regEntry (r : Byte) : (s.setShift r).regEntry = s.regEntry := rfl
@[simp] theorem setShift_regDisplay (r : Byte) : (s.setShift r).regDisplay = s.regDisplay := rfl
@[simp] theorem setShift_regShift (r : Byte) : (s.setShift r).regShift = r := rfl
@[simp] theorem setShift_regFunction (r : Byte) : (s.setShift r).regFunction = s.regFunction := rfl
@[simp] theorem setShift_session (r : Byte) : (s.setShift r).session = s.session := rfl
@[simp] theorem setShift_adapter (r : Byte) : (s.setShift r).adapter = s.adapter := rfl
@[simp] theorem setShift_sr (r : Byte) : (s.setShift r).sr = s.sr := rfl
@[simp] theorem setShift_q (r : Byte) : (s.setShift r).q = s.q := rfl
@[simp] theorem setShift_pulse (r : Byte) : (s.setShift r).pulse = s.pulse := rfl
@[simp] theorem setShift_log (r : Byte) : (s.setShift r).log = s.log := rfl
@[simp] theorem setShift_faults (r : Byte) : (s.setShift r).faults = s.faults := rfl
@[simp] theorem setShift_refused (r : Byte) : (s.setShift r).refused = s.refused := rfl
@[simp] theorem setShift_stuck (r : Byte) : (s.setShift r).stuck = s.stuck := rfl
@[simp] theorem setShift_codes (r : Byte) : (s.setShift r).codes = s.codes := rfl
@[simp] theorem setShift_transport (r : Byte) : (s.setShift r).transport = s.transport := rfl
@[simp] theorem setShift_floats (r : Byte) : (s.setShift r).floats = s.floats := rfl
@[simp] theorem setShift_params (r : Byte) : (s.setShift r).params = s.params := rfl
@[simp] theorem setShift_pending (r : Byte) : (s.setShift r).pending = s.pending := rfl
@[simp] theorem setShift_view (r : Byte) : (s.setShift r).view = s.view := rfl

@[simp] theorem setFunction_pins (r : Byte) : (s.setFunction r).pins = s.pins := rfl
@[simp] theorem setFunction_regEntry (r : Byte) : (s.setFunction r).regEntry = s.regEntry := rfl
@[simp] theorem setFunction_regDisplay (r : Byte) : (s.setFunction r).regDisplay = s.regDisplay := rfl
@[simp] theorem setFunction_regShift (r : Byte) : (s.setFunction r).regShift = s.regShift := rfl
@[simp] theorem setFunction_regFunction (r : Byte) : (s.setFunction r).regFunction = r := rfl
@[simp] theorem setFunction_session (r : Byte) : (s.setFunction r).session = s.session := rfl
@[simp] theorem setFunction_adapter (r : Byte) : (s.setFunction r).adapter = s.adapter := rfl
@[simp] theorem setFunction_sr (r : Byte) : (s.setFunction r).sr = s.sr := rfl
@[simp] theorem setFunction_q (r : Byte) : (s.setFunction r).q = s.q := rfl
@[simp] theorem setFunction_pulse (r : Byte) : (s.setFunction r).pulse = s.pulse := rfl
@[simp] theorem setFunction_log (r : Byte) : (s.setFunction r).log = s.log := rfl
@[simp] theorem setFunction_faults (r : Byte) : (s.setFunction r).faults = s.faults := rfl
@[simp] theorem setFunction_refused (r : Byte) : (s.setFunction r).refused = s.refused := rfl
@[simp] theorem setFunction_stuck (r : Byte) : (s.setFunction r).stuck = s.stuck := rfl
@[simp] theorem setFunction_codes (r : Byte) : (s.setFunction r).codes = s.codes := rfl
@[simp] theorem setFunction_transport (r : Byte) : (s.setFunction r).transport = s.transport := rfl
@[simp] theorem setFunction_floats (r : Byte) : (s.setFunction r).floats = s.floats := rfl
@[simp] theorem setFunction_params (r : Byte) : (s.setFunction r).params = s.params := rfl
@[simp] theorem setFunction_pending (r : Byte) : (s.setFunction r).pending = s.pending := rfl
@[simp] theorem setFunction_view (r : Byte) : (s.setFunction r).view = s.view := rfl

@[simp] theorem setSession_pins (x : Session) : (s.setSession x).pins = s.pins := rfl
@[simp] theorem setSession_regEntry (x : Session) : (s.setSession x).regEntry = s.regEntry := rfl
@[simp] theorem setSession_regDisplay (x : Session) : (s.setSession x).regDisplay = s.regDisplay := rfl
@[simp] theorem setSession_regShift (x : Session) : (s.setSession x).regShift = s.regShift := rfl
@[simp] theorem setSession_regFunction (x : Session) : (s.setSession x).regFunction = s.regFunction := rfl
@[simp] theorem setSession_session (x : Session) : (s.setSession x).session = x := rfl
@[simp] theorem setSession_adapter (x : Session) : (s.setSession x).adapter = s.adapter := rfl
@[simp] theorem setSession_sr (x : Session) : (s.setSession x).sr = s.sr := rfl
@[simp] theorem setSession_q (x : Session) : (s.setSession x).q = s.q := rfl
@[simp] theorem setSession_pulse (x : Session) : (s.setSession x).pulse = s.pulse := rfl
@[simp] theorem setSession_log (x : Session) : (s.setSession x).log = s.log := rfl
@[simp] theorem setSession_faults (x : Session) : (s.setSession x).faults = s.faults := rfl
@[simp] theorem setSession_refused (x : Session) : (s.setSession x).refused = s.refused := rfl
@[simp] theorem setSession_stuck (x : Session) : (s.setSession x).stuck = s.stuck := rfl
@[simp] theorem setSession_codes (x : Session) : (s.setSession x).codes = s.codes := rfl
@[simp] theorem setSession_transport (x : Session) : (s.setSession x).transport = s.transport := rfl
@[simp] theorem setSession_floats (x : Session) : (s.setSession x).floats = s.floats := rfl
@[simp] theorem setSession_params (x : Session) : (s.setSession x).params = s.params := rfl
@[simp] theorem setSession_pending (x : Session) : (s.setSession x).pending = s.pending := rfl
@[simp] theorem setSession_view (x : Session) : (s.setSession x).view = s.view := rfl

@[simp] theorem setChain_pins (a : Byte) (d q : Word) : (s.setChain a d q).pins = s.pins := rfl
@[simp] theorem setChain_regEntry (a : Byte) (d q : Word) : (s.setChain a d q).regEntry = s.regEntry := rfl
@[simp] theorem setChain_regDisplay (a : Byte) (d q : Word) : (s.setChain a d q).regDisplay = s.regDisplay := rfl
@[simp] theorem setChain_regShift (a : Byte) (d q : Word) : (s.setChain a d q).regShift = s.regShift := rfl
@[simp] theorem setChain_regFunction (a : Byte) (d q : Word) : (s.setChain a d q).regFunction = s.regFunction := rfl
@[simp] theorem setChain_session (a : Byte) (d q : Word) : (s.setChain a d q).session = s.session := rfl
@[simp] theorem setChain_adapter (a : Byte) (d q : Word) : (s.setChain a d q).adapter = a := rfl
@[simp] theorem setChain_sr (a : Byte) (d q : Word) : (s.setChain a d q).sr = d := rfl
@[simp] theorem setChain_q (a : Byte) (d q : Word) : (s.setChain a d q).q = q := rfl
@[simp] theorem setChain_pulse (a : Byte) (d q : Word) : (s.setChain a d q).pulse = s.pulse := rfl
@[simp] theorem setChain_log (a : Byte) (d q : Word) : (s.setChain a d q).log = s.log := rfl
@[simp] theorem setChain_faults (a : Byte) (d q : Word) : (s.setChain a d q).faults = s.faults := rfl
@[simp] theorem setChain_refused (a : Byte) (d q : Word) : (s.setChain a d q).refused = s.refused := rfl
@[simp] theorem setChain_stuck (a : Byte) (d q : Word) : (s.setChain a d q).stuck = s.stuck := rfl
@[simp] theorem setChain_codes (a : Byte) (d q : Word) : (s.setChain a d q).codes = s.codes := rfl
@[simp] theorem setChain_transport (a : Byte) (d q : Word) : (s.setChain a d q).transport = s.transport := rfl
@[simp] theorem setChain_floats (a : Byte) (d q : Word) : (s.setChain a d q).floats = s.floats := rfl
@[simp] theorem setChain_params (a : Byte) (d q : Word) : (s.setChain a d q).params = s.params := rfl
@[simp] theorem setChain_pending (a : Byte) (d q : Word) : (s.setChain a d q).pending = s.pending := rfl
@[simp] theorem setChain_view (a : Byte) (d q : Word) : (s.setChain a d q).view = viewOf a q := rfl

@[simp] theorem setPulse_pins (x : Pulse) : (s.setPulse x).pins = s.pins := rfl
@[simp] theorem setPulse_regEntry (x : Pulse) : (s.setPulse x).regEntry = s.regEntry := rfl
@[simp] theorem setPulse_regDisplay (x : Pulse) : (s.setPulse x).regDisplay = s.regDisplay := rfl
@[simp] theorem setPulse_regShift (x : Pulse) : (s.setPulse x).regShift = s.regShift := rfl
@[simp] theorem setPulse_regFunction (x : Pulse) : (s.setPulse x).regFunction = s.regFunction := rfl
@[simp] theorem setPulse_session (x : Pulse) : (s.setPulse x).session = s.session := rfl
@[simp] theorem setPulse_adapter (x : Pulse) : (s.setPulse x).adapter = s.adapter := rfl
@[simp] theorem setPulse_sr (x : Pulse) : (s.setPulse x).sr = s.sr := rfl
@[simp] theorem setPulse_q (x : Pulse) : (s.setPulse x).q = s.q := rfl
@[simp] theorem setPulse_pulse (x : Pulse) : (s.setPulse x).pulse = x := rfl
@[simp] theorem setPulse_log (x : Pulse) : (s.setPulse x).log = s.log := rfl
@[simp] theorem setPulse_faults (x : Pulse) : (s.setPulse x).faults = s.faults := rfl
@[simp] theorem setPulse_refused (x : Pulse) : (s.setPulse x).refused = s.refused := rfl
@[simp] theorem setPulse_stuck (x : Pulse) : (s.setPulse x).stuck = s.stuck := rfl
@[simp] theorem setPulse_codes (x : Pulse) : (s.setPulse x).codes = s.codes := rfl
@[simp] theorem setPulse_transport (x : Pulse) : (s.setPulse x).transport = s.transport := rfl
@[simp] theorem setPulse_floats (x : Pulse) : (s.setPulse x).floats = s.floats := rfl
@[simp] theorem setPulse_params (x : Pulse) : (s.setPulse x).params = s.params := rfl
@[simp] theorem setPulse_pending (x : Pulse) : (s.setPulse x).pending = s.pending := rfl
@[simp] theorem setPulse_view (x : Pulse) : (s.setPulse x).view = s.view := rfl

@[simp] theorem setTransport_pins (d : Draws Answer) : (s.setTransport d).pins = s.pins := rfl
@[simp] theorem setTransport_regEntry (d : Draws Answer) : (s.setTransport d).regEntry = s.regEntry := rfl
@[simp] theorem setTransport_regDisplay (d : Draws Answer) : (s.setTransport d).regDisplay = s.regDisplay := rfl
@[simp] theorem setTransport_regShift (d : Draws Answer) : (s.setTransport d).regShift = s.regShift := rfl
@[simp] theorem setTransport_regFunction (d : Draws Answer) : (s.setTransport d).regFunction = s.regFunction := rfl
@[simp] theorem setTransport_session (d : Draws Answer) : (s.setTransport d).session = s.session := rfl
@[simp] theorem setTransport_adapter (d : Draws Answer) : (s.setTransport d).adapter = s.adapter := rfl
@[simp] theorem setTransport_sr (d : Draws Answer) : (s.setTransport d).sr = s.sr := rfl
@[simp] theorem setTransport_q (d : Draws Answer) : (s.setTransport d).q = s.q := rfl
@[simp] theorem setTransport_pulse (d : Draws Answer) : (s.setTransport d).pulse = s.pulse := rfl
@[simp] theorem setTransport_log (d : Draws Answer) : (s.setTransport d).log = s.log := rfl
@[simp] theorem setTransport_faults (d : Draws Answer) : (s.setTransport d).faults = s.faults := rfl
@[simp] theorem setTransport_refused (d : Draws Answer) : (s.setTransport d).refused = s.refused := rfl
@[simp] theorem setTransport_stuck (d : Draws Answer) : (s.setTransport d).stuck = s.stuck := rfl
@[simp] theorem setTransport_codes (d : Draws Answer) : (s.setTransport d).codes = s.codes := rfl
@[simp] theorem setTransport_transport (d : Draws Answer) : (s.setTransport d).transport = d := rfl
@[simp] theorem setTransport_floats (d : Draws Answer) : (s.setTransport d).floats = s.floats := rfl
@[simp] theorem setTransport_params (d : Draws Answer) : (s.setTransport d).params = s.params := rfl
@[simp] theorem setTransport_pending (d : Draws Answer) : (s.setTransport d).pending = s.pending := rfl
@[simp] theorem setTransport_view (d : Draws Answer) : (s.setTransport d).view = s.view := rfl

@[simp] theorem setFloats_pins (d : Draws Nat) : (s.setFloats d).pins = s.pins := rfl
@[simp] theorem setFloats_regEntry (d : Draws Nat) : (s.setFloats d).regEntry = s.regEntry := rfl
@[simp] theorem setFloats_regDisplay (d : Draws Nat) : (s.setFloats d).regDisplay = s.regDisplay := rfl
@[simp] theorem setFloats_regShift (d : Draws Nat) : (s.setFloats d).regShift = s.regShift := rfl
@[simp] theorem setFloats_regFunction (d : Draws Nat) : (s.setFloats d).regFunction = s.regFunction := rfl
@[simp] theorem setFloats_session (d : Draws Nat) : (s.setFloats d).session = s.session := rfl
@[simp] theorem setFloats_adapter (d : Draws Nat) : (s.setFloats d).adapter = s.adapter := rfl
@[simp] theorem setFloats_sr (d : Draws Nat) : (s.setFloats d).sr = s.sr := rfl
@[simp] theorem setFloats_q (d : Draws Nat) : (s.setFloats d).q = s.q := rfl
@[simp] theorem setFloats_pulse (d : Draws Nat) : (s.setFloats d).pulse = s.pulse := rfl
@[simp] theorem setFloats_log (d : Draws Nat) : (s.setFloats d).log = s.log := rfl
@[simp] theorem setFloats_faults (d : Draws Nat) : (s.setFloats d).faults = s.faults := rfl
@[simp] theorem setFloats_refused (d : Draws Nat) : (s.setFloats d).refused = s.refused := rfl
@[simp] theorem setFloats_stuck (d : Draws Nat) : (s.setFloats d).stuck = s.stuck := rfl
@[simp] theorem setFloats_codes (d : Draws Nat) : (s.setFloats d).codes = s.codes := rfl
@[simp] theorem setFloats_transport (d : Draws Nat) : (s.setFloats d).transport = s.transport := rfl
@[simp] theorem setFloats_floats (d : Draws Nat) : (s.setFloats d).floats = d := rfl
@[simp] theorem setFloats_params (d : Draws Nat) : (s.setFloats d).params = s.params := rfl
@[simp] theorem setFloats_pending (d : Draws Nat) : (s.setFloats d).pending = s.pending := rfl
@[simp] theorem setFloats_view (d : Draws Nat) : (s.setFloats d).view = s.view := rfl

@[simp] theorem setPending_pins (l : List Issue) : (s.setPending l).pins = s.pins := rfl
@[simp] theorem setPending_regEntry (l : List Issue) : (s.setPending l).regEntry = s.regEntry := rfl
@[simp] theorem setPending_regDisplay (l : List Issue) : (s.setPending l).regDisplay = s.regDisplay := rfl
@[simp] theorem setPending_regShift (l : List Issue) : (s.setPending l).regShift = s.regShift := rfl
@[simp] theorem setPending_regFunction (l : List Issue) : (s.setPending l).regFunction = s.regFunction := rfl
@[simp] theorem setPending_session (l : List Issue) : (s.setPending l).session = s.session := rfl
@[simp] theorem setPending_adapter (l : List Issue) : (s.setPending l).adapter = s.adapter := rfl
@[simp] theorem setPending_sr (l : List Issue) : (s.setPending l).sr = s.sr := rfl
@[simp] theorem setPending_q (l : List Issue) : (s.setPending l).q = s.q := rfl
@[simp] theorem setPending_pulse (l : List Issue) : (s.setPending l).pulse = s.pulse := rfl
@[simp] theorem setPending_log (l : List Issue) : (s.setPending l).log = s.log := rfl
@[simp] theorem setPending_faults (l : List Issue) : (s.setPending l).faults = s.faults := rfl
@[simp] theorem setPending_refused (l : List Issue) : (s.setPending l).refused = s.refused := rfl
@[simp] theorem setPending_stuck (l : List Issue) : (s.setPending l).stuck = s.stuck := rfl
@[simp] theorem setPending_codes (l : List Issue) : (s.setPending l).codes = s.codes := rfl
@[simp] theorem setPending_transport (l : List Issue) : (s.setPending l).transport = s.transport := rfl
@[simp] theorem setPending_floats (l : List Issue) : (s.setPending l).floats = s.floats := rfl
@[simp] theorem setPending_params (l : List Issue) : (s.setPending l).params = s.params := rfl
@[simp] theorem setPending_pending (l : List Issue) : (s.setPending l).pending = l := rfl
@[simp] theorem setPending_view (l : List Issue) : (s.setPending l).view = s.view := rfl

@[simp] theorem setStuck_pins : s.setStuck.pins = s.pins := rfl
@[simp] theorem setStuck_regEntry : s.setStuck.regEntry = s.regEntry := rfl
@[simp] theorem setStuck_regDisplay : s.setStuck.regDisplay = s.regDisplay := rfl
@[simp] theorem setStuck_regShift : s.setStuck.regShift = s.regShift := rfl
@[simp] theorem setStuck_regFunction : s.setStuck.regFunction = s.regFunction := rfl
@[simp] theorem setStuck_session : s.setStuck.session = s.session := rfl
@[simp] theorem setStuck_adapter : s.setStuck.adapter = s.adapter := rfl
@[simp] theorem setStuck_sr : s.setStuck.sr = s.sr := rfl
@[simp] theorem setStuck_q : s.setStuck.q = s.q := rfl
@[simp] theorem setStuck_pulse : s.setStuck.pulse = s.pulse := rfl
@[simp] theorem setStuck_log : s.setStuck.log = s.log := rfl
@[simp] theorem setStuck_faults : s.setStuck.faults = s.faults := rfl
@[simp] theorem setStuck_refused : s.setStuck.refused = s.refused := rfl
@[simp] theorem setStuck_stuck : s.setStuck.stuck = true := rfl
@[simp] theorem setStuck_codes : s.setStuck.codes = s.codes := rfl
@[simp] theorem setStuck_transport : s.setStuck.transport = s.transport := rfl
@[simp] theorem setStuck_floats : s.setStuck.floats = s.floats := rfl
@[simp] theorem setStuck_params : s.setStuck.params = s.params := rfl
@[simp] theorem setStuck_pending : s.setStuck.pending = s.pending := rfl
@[simp] theorem setStuck_view : s.setStuck.view = s.view := rfl

@[simp] theorem logEvents_pins (es : List Event) : (s.logEvents es).pins = s.pins := rfl
@[simp] theorem logEvents_regEntry (es : List Event) : (s.logEvents es).regEntry = s.regEntry := rfl
@[simp] theorem logEvents_regDisplay (es : List Event) : (s.logEvents es).regDisplay = s.regDisplay := rfl
@[simp] theorem logEvents_regShift (es : List Event) : (s.logEvents es).regShift = s.regShift := rfl
@[simp] theorem logEvents_regFunction (es : List Event) : (s.logEvents es).regFunction = s.regFunction := rfl
@[simp] theorem logEvents_session (es : List Event) : (s.logEvents es).session = s.session := rfl
@[simp] theorem logEvents_adapter (es : List Event) : (s.logEvents es).adapter = s.adapter := rfl
@[simp] theorem logEvents_sr (es : List Event) : (s.logEvents es).sr = s.sr := rfl
@[simp] theorem logEvents_q (es : List Event) : (s.logEvents es).q = s.q := rfl
@[simp] theorem logEvents_pulse (es : List Event) : (s.logEvents es).pulse = s.pulse := rfl
@[simp] theorem logEvents_log (es : List Event) : (s.logEvents es).log = s.log ++ es := rfl
@[simp] theorem logEvents_faults (es : List Event) : (s.logEvents es).faults = s.faults := rfl
@[simp] theorem logEvents_refused (es : List Event) : (s.logEvents es).refused = s.refused := rfl
@[simp] theorem logEvents_stuck (es : List Event) : (s.logEvents es).stuck = s.stuck := rfl
@[simp] theorem logEvents_codes (es : List Event) : (s.logEvents es).codes = s.codes := rfl
@[simp] theorem logEvents_transport (es : List Event) : (s.logEvents es).transport = s.transport := rfl
@[simp] theorem logEvents_floats (es : List Event) : (s.logEvents es).floats = s.floats := rfl
@[simp] theorem logEvents_params (es : List Event) : (s.logEvents es).params = s.params := rfl
@[simp] theorem logEvents_pending (es : List Event) : (s.logEvents es).pending = s.pending := rfl
@[simp] theorem logEvents_view (es : List Event) : (s.logEvents es).view = s.view := rfl

@[simp] theorem returnCode_pins (c : ReturnCode) : (s.returnCode c).pins = s.pins := rfl
@[simp] theorem returnCode_regEntry (c : ReturnCode) : (s.returnCode c).regEntry = s.regEntry := rfl
@[simp] theorem returnCode_regDisplay (c : ReturnCode) : (s.returnCode c).regDisplay = s.regDisplay := rfl
@[simp] theorem returnCode_regShift (c : ReturnCode) : (s.returnCode c).regShift = s.regShift := rfl
@[simp] theorem returnCode_regFunction (c : ReturnCode) : (s.returnCode c).regFunction = s.regFunction := rfl
@[simp] theorem returnCode_session (c : ReturnCode) : (s.returnCode c).session = s.session := rfl
@[simp] theorem returnCode_adapter (c : ReturnCode) : (s.returnCode c).adapter = s.adapter := rfl
@[simp] theorem returnCode_sr (c : ReturnCode) : (s.returnCode c).sr = s.sr := rfl
@[simp] theorem returnCode_q (c : ReturnCode) : (s.returnCode c).q = s.q := rfl
@[simp] theorem returnCode_pulse (c : ReturnCode) : (s.returnCode c).pulse = s.pulse := rfl
@[simp] theorem returnCode_log (c : ReturnCode) : (s.returnCode c).log = s.log := rfl
@[simp] theorem returnCode_faults (c : ReturnCode) : (s.returnCode c).faults = s.faults := rfl
@[simp] theorem returnCode_refused (c : ReturnCode) : (s.returnCode c).refused = s.refused := rfl
@[simp] theorem returnCode_stuck (c : ReturnCode) : (s.returnCode c).stuck = s.stuck := rfl
@[simp] theorem returnCode_codes (c : ReturnCode) : (s.returnCode c).codes = s.codes ++ [c] := rfl
@[simp] theorem returnCode_transport (c : ReturnCode) : (s.returnCode c).transport = s.transport := rfl
@[simp] theorem returnCode_floats (c : ReturnCode) : (s.returnCode c).floats = s.floats := rfl
@[simp] theorem returnCode_params (c : ReturnCode) : (s.returnCode c).params = s.params := rfl
@[simp] theorem returnCode_pending (c : ReturnCode) : (s.returnCode c).pending = s.pending := rfl
@[simp] theorem returnCode_view (c : ReturnCode) : (s.returnCode c).view = s.view := rfl

@[simp] theorem addFault_pins (r : FaultReason) : (s.addFault r).pins = s.pins := rfl
@[simp] theorem addFault_regEntry (r : FaultReason) : (s.addFault r).regEntry = s.regEntry := rfl
@[simp] theorem addFault_regDisplay (r : FaultReason) : (s.addFault r).regDisplay = s.regDisplay := rfl
@[simp] theorem addFault_regShift (r : FaultReason) : (s.addFault r).regShift = s.regShift := rfl
@[simp] theorem addFault_regFunction (r : FaultReason) : (s.addFault r).regFunction = s.regFunction := rfl
@[simp] theorem addFault_session (r : FaultReason) : (s.addFault r).session = s.session := rfl
@[simp] theorem addFault_adapter (r : FaultReason) : (s.addFault r).adapter = s.adapter := rfl
@[simp] theorem addFault_sr (r : FaultReason) : (s.addFault r).sr = s.sr := rfl
@[simp] theorem addFault_q (r : FaultReason) : (s.addFault r).q = s.q := rfl
@[simp] theorem addFault_pulse (r : FaultReason) : (s.addFault r).pulse = s.pulse := rfl
@[simp] theorem addFault_log (r : FaultReason) : (s.addFault r).log = s.log := rfl
@[simp] theorem addFault_faults (r : FaultReason) : (s.addFault r).faults = if r ∈ s.faults then s.faults else s.faults ++ [r] := rfl
@[simp] theorem addFault_refused (r : FaultReason) : (s.addFault r).refused = s.refused := rfl
@[simp] theorem addFault_stuck (r : FaultReason) : (s.addFault r).stuck = s.stuck := rfl
@[simp] theorem addFault_codes (r : FaultReason) : (s.addFault r).codes = s.codes := rfl
@[simp] theorem addFault_transport (r : FaultReason) : (s.addFault r).transport = s.transport := rfl
@[simp] theorem addFault_floats (r : FaultReason) : (s.addFault r).floats = s.floats := rfl
@[simp] theorem addFault_params (r : FaultReason) : (s.addFault r).params = s.params := rfl
@[simp] theorem addFault_pending (r : FaultReason) : (s.addFault r).pending = s.pending := rfl
@[simp] theorem addFault_view (r : FaultReason) : (s.addFault r).view = s.view := rfl

@[simp] theorem refuse_pins (r : RefusalReason) : (s.refuse r).pins = s.pins := rfl
@[simp] theorem refuse_regEntry (r : RefusalReason) : (s.refuse r).regEntry = s.regEntry := rfl
@[simp] theorem refuse_regDisplay (r : RefusalReason) : (s.refuse r).regDisplay = s.regDisplay := rfl
@[simp] theorem refuse_regShift (r : RefusalReason) : (s.refuse r).regShift = s.regShift := rfl
@[simp] theorem refuse_regFunction (r : RefusalReason) : (s.refuse r).regFunction = s.regFunction := rfl
@[simp] theorem refuse_session (r : RefusalReason) : (s.refuse r).session = s.session := rfl
@[simp] theorem refuse_adapter (r : RefusalReason) : (s.refuse r).adapter = s.adapter := rfl
@[simp] theorem refuse_sr (r : RefusalReason) : (s.refuse r).sr = s.sr := rfl
@[simp] theorem refuse_q (r : RefusalReason) : (s.refuse r).q = s.q := rfl
@[simp] theorem refuse_pulse (r : RefusalReason) : (s.refuse r).pulse = s.pulse := rfl
@[simp] theorem refuse_log (r : RefusalReason) : (s.refuse r).log = s.log := rfl
@[simp] theorem refuse_faults (r : RefusalReason) : (s.refuse r).faults = s.faults := rfl
@[simp] theorem refuse_refused (r : RefusalReason) : (s.refuse r).refused = some r := rfl
@[simp] theorem refuse_stuck (r : RefusalReason) : (s.refuse r).stuck = s.stuck := rfl
@[simp] theorem refuse_codes (r : RefusalReason) : (s.refuse r).codes = s.codes := rfl
@[simp] theorem refuse_transport (r : RefusalReason) : (s.refuse r).transport = s.transport := rfl
@[simp] theorem refuse_floats (r : RefusalReason) : (s.refuse r).floats = s.floats := rfl
@[simp] theorem refuse_params (r : RefusalReason) : (s.refuse r).params = s.params := rfl
@[simp] theorem refuse_pending (r : RefusalReason) : (s.refuse r).pending = s.pending := rfl
@[simp] theorem refuse_view (r : RefusalReason) : (s.refuse r).view = s.view := rfl

end Sys2Proof.Machine.State
end

