-- ==== Sys2Proof/Laws/Chain.lean ====
section
/-! SUPPORT. What the LCD's input pins and the shift chain can do with one byte and with a list of bytes
(spec/40_shift_loader.md section 4, spec/41_lcd_write_sequencer.md section 3). -/

namespace Sys2Proof.Machine

/-- What the LCD side can change: PULSE, the log at its end, the float draws and the sticky faults. -/
abbrev LcdSide (s t : State) : Prop :=
  ∃ es, t = { s with pulse := t.pulse, log := s.log ++ es, floats := t.floats, faults := t.faults }

/-- What delivered bytes can change: the LCD side and the chain. -/
abbrev Downstream (s t : State) : Prop :=
  ∃ es, t = { s with
    adapter := t.adapter, sr := t.sr, q := t.q, pulse := t.pulse, log := s.log ++ es, floats := t.floats,
    faults := t.faults }

theorem Downstream.refl (s : State) : Downstream s s := ⟨[], by simp⟩

theorem Downstream.trans {s t u : State} (h : Downstream s t) (k : Downstream t u) : Downstream s u := by
  obtain ⟨es, h⟩ := h
  obtain ⟨fs, k⟩ := k
  exact ⟨es ++ fs, by rw [k, h]; simp⟩

theorem lcdEdge_side (a c : Word) (s : State) : LcdSide s (lcdEdge a c s) := by
  simp only [lcdEdge]
  split
  · exact ⟨[], by simp [State.setPulse]⟩
  · split
    · exact ⟨[], by simp [State.setPulse]⟩
    · split
      · exact ⟨[latched s.params.dataHi s.pulse c], by simp [State.setPulse, State.logEvents]⟩
      · exact ⟨[], by simp⟩

theorem lcdEdge_faults (a c : Word) (s : State) : (lcdEdge a c s).faults = s.faults := by
  simp only [lcdEdge]; split <;> (try split) <;> (try split) <;> rfl

/-- R90 changes the LCD side only. -/
theorem lcdStep_side (v0 v1 : Option Word) (s : State) : LcdSide s (lcdStep v0 v1 s) := by
  match v0, v1 with
  | none, none => exact ⟨[], by simp [lcdStep]⟩
  | some _, none => exact ⟨[], by simp [lcdStep, State.setPulse]⟩
  | none, some c =>
    exact ⟨List.replicate s.floats.head .anyTransfer, by
      simp [lcdStep, State.setPulse, State.logEvents, State.setFloats]⟩
  | some a, some c =>
    simp only [lcdStep]
    split
    · obtain ⟨es, h⟩ := lcdEdge_side a c (s.addFault .readContention)
      exact ⟨es, by rw [h]; simp [State.addFault]⟩
    · exact lcdEdge_side a c s

/-- R96: the one fault of the LCD side. -/
theorem lcdStep_faults (v0 v1 : Option Word) (s : State) :
    (lcdStep v0 v1 s).faults =
      match v0, v1 with
      | some _, some c => if contended c then (s.addFault .readContention).faults else s.faults
      | _, _ => s.faults := by
  match v0, v1 with
  | none, none => rfl
  | some _, none => rfl
  | none, some c => rfl
  | some a, some c =>
    simp only [lcdStep, lcdEdge_faults]
    split <;> rfl

/-- A view that stays and is not contended leaves the LCD side alone. -/
theorem lcdStep_same (v : Option Word) (s : State) (h : ∀ c, v = some c → contended c = false) :
    lcdStep v v s = s := by
  match v with
  | none => rfl
  | some c =>
    have hc := h c rfl
    simp only [lcdStep, hc]
    cases he : eOf c <;> simp [lcdEdge, he]

section
variable (v0 v1 : Option Word) (s : State)
@[simp] theorem lcdStep_pins : (lcdStep v0 v1 s).pins = s.pins := by
  obtain ⟨es, h⟩ := lcdStep_side v0 v1 s; rw [h]
@[simp] theorem lcdStep_adapter : (lcdStep v0 v1 s).adapter = s.adapter := by
  obtain ⟨es, h⟩ := lcdStep_side v0 v1 s; rw [h]
@[simp] theorem lcdStep_sr : (lcdStep v0 v1 s).sr = s.sr := by
  obtain ⟨es, h⟩ := lcdStep_side v0 v1 s; rw [h]
@[simp] theorem lcdStep_q : (lcdStep v0 v1 s).q = s.q := by
  obtain ⟨es, h⟩ := lcdStep_side v0 v1 s; rw [h]
@[simp] theorem lcdStep_params : (lcdStep v0 v1 s).params = s.params := by
  obtain ⟨es, h⟩ := lcdStep_side v0 v1 s; rw [h]
@[simp] theorem lcdStep_view : (lcdStep v0 v1 s).view = s.view := by
  simp [State.view]
end

/-- The LCD side's step looks at no chain register: it can be taken before or after the chain moves. -/
theorem lcdStep_setChain (v0 v1 : Option Word) (a : Byte) (d q : Word) (s : State) :
    lcdStep v0 v1 (s.setChain a d q) = (lcdStep v0 v1 s).setChain a d q := by
  match v0, v1 with
  | none, none => rfl
  | some _, none => rfl
  | none, some c => rfl
  | some x, some c =>
    simp only [lcdStep]
    cases contended c <;> simp only [lcdEdge, if_true, if_false, Bool.false_eq_true] <;>
      (split <;> (try split) <;> (try split) <;> rfl)

/-- R74: one byte changes the chain and the LCD side only. -/
theorem applyByte_downstream (b : Byte) (s : State) : Downstream s (applyByte b s) := by
  simp only [applyByte]
  obtain ⟨es, h⟩ := lcdStep_side s.view (viewOf b (nextQ s.adapter b s.sr s.q))
    (s.setChain b (nextSr s.adapter b s.sr) (nextQ s.adapter b s.sr s.q))
  exact ⟨es, by rw [h]; rfl⟩

@[simp] theorem applyByte_adapter (b : Byte) (s : State) : (applyByte b s).adapter = b := by simp [applyByte]
@[simp] theorem applyByte_sr (b : Byte) (s : State) : (applyByte b s).sr = nextSr s.adapter b s.sr := by
  simp [applyByte]
@[simp] theorem applyByte_q (b : Byte) (s : State) : (applyByte b s).q = nextQ s.adapter b s.sr s.q := by
  simp [applyByte]

@[simp] theorem deliver_nil (s : State) : deliver [] s = s := rfl

theorem deliver_cons (b : Byte) (bs : List Byte) (s : State) :
    deliver (b :: bs) s = if (applyByte b s).faults = [] then deliver bs (applyByte b s) else applyByte b s := by
  simp only [deliver]; split <;> simp_all

/-- Delivered bytes change the chain and the LCD side only. -/
theorem deliver_downstream (bs : List Byte) (s : State) : Downstream s (deliver bs s) := by
  induction bs generalizing s with
  | nil => exact Downstream.refl s
  | cons b bs ih =>
    rw [deliver_cons]
    split
    · exact (applyByte_downstream b s).trans (ih _)
    · exact applyByte_downstream b s

/-- What holds before the first byte and is kept by every byte holds after the last. -/
theorem deliver_keeps {I : State → Prop} (h : ∀ b s, I s → I (applyByte b s)) (bs : List Byte) (s : State) (hs : I s) :
    I (deliver bs s) := by
  induction bs generalizing s with
  | nil => exact hs
  | cons b bs ih =>
    rw [deliver_cons]
    split
    · exact ih _ (h b s hs)
    · exact h b s hs

/-- A byte that floats or drives as the last one did, and raises no latch edge over an uncontended view, moves only the
adapter and the shift stage. -/
theorem applyByte_quiet (b : Byte) (s : State) (hoe : b[5] = s.adapter[5])
    (hl : b[2] = false ∨ s.adapter[2] = true) (hc : b[5] = true ∨ contended s.q = false) :
    applyByte b s = s.setChain b (nextSr s.adapter b s.sr) s.q := by
  have hq : nextQ s.adapter b s.sr s.q = s.q := by
    rcases hl with h | h <;> simp [nextQ, h]
  have hv : s.view = viewOf b s.q := by simp [State.view, viewOf, hoe]
  simp only [applyByte, hq, hv]
  apply lcdStep_same
  intro c hcv
  rcases hc with h | h
  · simp [viewOf, h] at hcv
  · simp only [viewOf] at hcv
    split at hcv
    · cases hcv
    · cases hcv; exact h

end Sys2Proof.Machine
end

