-- ==== Sys2Proof/Laws/Frame.lean ====
section
/-! SUPPORT. What a whole frame does downstream (spec/40_shift_loader.md section 5). -/

namespace Sys2Proof.Machine

/-- The shift stage after the bits of a frame, from the pins that hold through it: held clear while CLR_N is 0. -/
def stageAfter (p : Byte) (ds : List Bool) (sr : Word) : Word := if p[4] then ds.foldl shiftIn sr else 0

@[simp] theorem setChain_setChain (a a' : Byte) (d d' q q' : Word) (s : State) :
    (s.setChain a d q).setChain a' d' q' = s.setChain a' d' q' := rfl

/-- `deliver` after a byte that is quiet. -/
theorem deliver_quiet (b : Byte) (bs : List Byte) (s : State) (hf : s.faults = []) (hoe : b[5] = s.adapter[5])
    (hl : b[2] = false ∨ s.adapter[2] = true) (hc : b[5] = true ∨ contended s.q = false) :
    deliver (b :: bs) s = deliver bs (s.setChain b (nextSr s.adapter b s.sr) s.q) := by
  rw [deliver_cons, applyByte_quiet b s hoe hl hc]
  simp [hf]

/-- The four bytes of one bit, from the byte before them: pins 2, 4 and 5 stay, one rising edge of SRCLK shifts SER in. -/
theorem bit_pins (p : Byte) (d : Bool) :
    (srclkLow p)[2] = p[2] ∧ (srclkLow p)[3] = false ∧ (srclkLow p)[4] = p[4] ∧ (srclkLow p)[5] = p[5] ∧
    (withSer (srclkLow p) d)[2] = p[2] ∧ (withSer (srclkLow p) d)[3] = false ∧
    (withSer (srclkLow p) d)[4] = p[4] ∧ (withSer (srclkLow p) d)[5] = p[5] ∧
    (srclkHigh (withSer (srclkLow p) d))[0] = d ∧ (srclkHigh (withSer (srclkLow p) d))[2] = p[2] ∧
    (srclkHigh (withSer (srclkLow p) d))[3] = true ∧ (srclkHigh (withSer (srclkLow p) d))[4] = p[4] ∧
    (srclkHigh (withSer (srclkLow p) d))[5] = p[5] := by
  revert p d; decide

/-- The clocked bits of a frame, delivered: each shifts once (R76), or none does while clear is held (R75); Q and the
LCD side stay. -/
theorem deliver_clockBits (p : Byte) (ds : List Bool) (bs : List Byte) (s : State) (hf : s.faults = [])
    (ha : s.adapter = p) (hr : p[2] = false) (hsr : p[4] = false → s.sr = 0)
    (hc : p[5] = true ∨ contended s.q = false) :
    deliver ((clockBits p ds).1 ++ bs) s =
      deliver bs (s.setChain (clockBits p ds).2 (stageAfter p ds s.sr) s.q) := by
  induction ds generalizing p s with
  | nil =>
    have : s.setChain p (stageAfter p [] s.sr) s.q = s := by
      have h2 : stageAfter p [] s.sr = s.sr := by
        simp only [stageAfter, List.foldl_nil]; split
        · rfl
        · exact (hsr (by simp_all)).symm
      rw [h2, ← ha]; rfl
    simp [this]
  | cons d ds ih =>
    obtain ⟨h12, h13, h14, h15, h22, h23, h24, h25, h30, h32, h33, h34, h35⟩ := bit_pins p d
    simp only [clockBits_cons, List.cons_append]
    rw [deliver_quiet _ _ _ hf (by rw [ha, h15]) (by simp [h12, hr]) (by simpa [h15] using hc)]
    rw [deliver_quiet _ _ _ (by simpa using hf) (by simp [h25, h15]) (by simp [h22, hr]) (by simpa [h25] using hc)]
    rw [deliver_quiet _ _ _ (by simpa using hf) (by simp [h35, h25]) (by simp [h32, hr]) (by simpa [h35] using hc)]
    rw [deliver_quiet _ _ _ (by simpa using hf) (by simp) (by simp [h32, hr]) (by simpa [h35] using hc)]
    simp only [State.setChain_sr, State.setChain_q, State.setChain_adapter, setChain_setChain]
    rw [ih _ _ (by simpa using hf) (by simp) (by simp [h32, hr])
      (by intro h; rw [h34] at h; simp [nextSr, clearStage, h34, h]) (by simpa [h35] using hc)]
    congr 1
    simp only [State.setChain_sr, State.setChain_q, setChain_setChain]
    congr 1
    simp only [stageAfter, h34, List.foldl_cons]
    split
    · rename_i h4
      simp [nextSr, clearStage, h13, h14, h23, h24, h30, h33, h34, h4, ha]
    · rfl

/-- Where a frame of the word `v` from the pins `p` leads the state `s`: the LCD side takes the step of byte 0 (where
OE_N may change) and the step of the last byte (the latch), and the chain holds the new stage and outputs. -/
def afterFrame {w : Nat} (p : Byte) (v : BitVec w) (s : State) : State :=
  let stage := stageAfter p (bitsDown v w) s.sr
  (lcdStep (viewOf p s.q) (viewOf p stage) (lcdStep s.view (viewOf p s.q) s)).setChain (encodeFrame p v).2 stage stage

theorem viewOf_congr {a b : Byte} (h : a[5] = b[5]) (q : Word) : viewOf a q = viewOf b q := by
  simp only [viewOf, h]

theorem viewOf_uncontended {p : Byte} {q : Word} (h : p[5] = true ∨ contended q = false) :
    ∀ c, viewOf p q = some c → contended c = false := by
  intro c hc
  rcases h with h | h
  · simp [viewOf, h] at hc
  · simp only [viewOf] at hc
    split at hc
    · cases hc
    · cases hc; exact h

theorem lcdStep_faults_clear (v0 v1 : Option Word) (s : State) (h : ∀ c, v1 = some c → contended c = false) :
    (lcdStep v0 v1 s).faults = s.faults := by
  rw [lcdStep_faults]
  match v0, v1 with
  | none, none => rfl
  | some _, none => rfl
  | none, some c => rfl
  | some _, some c => simp [h c rfl]

theorem rclkLow_pins (p : Byte) :
    (rclkLow p)[2] = false ∧ (rclkLow p)[3] = p[3] ∧ (rclkLow p)[4] = p[4] ∧ (rclkLow p)[5] = p[5] := by
  revert p; decide

theorem rclkHigh_pins (p : Byte) :
    (rclkHigh p)[2] = true ∧ (rclkHigh p)[3] = p[3] ∧ (rclkHigh p)[4] = p[4] ∧ (rclkHigh p)[5] = p[5] := by
  revert p; decide

theorem clocked_pins (p : Byte) (d : Bool) :
    (srclkHigh (withSer (rclkLow p) d))[2] = false ∧ (srclkHigh (withSer (rclkLow p) d))[3] = true ∧
    (srclkHigh (withSer (rclkLow p) d))[4] = p[4] ∧ (srclkHigh (withSer (rclkLow p) d))[5] = p[5] := by
  revert p d; decide

/-- R80, R81, R83: a frame delivered whole, when byte 0 raises no clock and the driven view is never contended. -/
theorem deliver_encodeFrame {w : Nat} (p : Byte) (v : BitVec (w + 1)) (s : State) (hf : s.faults = [])
    (hclk : s.adapter[3] = true ∨ p[3] = false)
    (hc : p[5] = true ∨
      (contended s.q = false ∧ contended (stageAfter p (bitsDown v (w + 1)) s.sr) = false)) :
    deliver (encodeFrame p v).1 s = afterFrame p v s := by
  obtain ⟨e2, e3, e4, e5⟩ := rclkLow_pins p
  -- byte 0
  have hq0 : nextQ s.adapter (rclkLow p) s.sr s.q = s.q := by simp [nextQ, e2]
  have hs0 : nextSr s.adapter (rclkLow p) s.sr = clearStage p s.sr := by
    rcases hclk with h | h <;> simp [nextSr, clearStage, e3, e4, h]
  have hb0 : applyByte (rclkLow p) s =
      (lcdStep s.view (viewOf p s.q) s).setChain (rclkLow p) (clearStage p s.sr) s.q := by
    simp only [applyByte, hq0, hs0, lcdStep_setChain, viewOf_congr e5]
  have hf0 : (lcdStep s.view (viewOf p s.q) s).faults = [] := by
    rw [lcdStep_faults_clear _ _ _ (viewOf_uncontended (hc.imp id (·.1))), hf]
  -- the body
  have hlast : (clockBits (rclkLow p) (bitsDown v (w + 1))).2[2] = false ∧
      (clockBits (rclkLow p) (bitsDown v (w + 1))).2[3] = true ∧
      (clockBits (rclkLow p) (bitsDown v (w + 1))).2[4] = p[4] ∧
      (clockBits (rclkLow p) (bitsDown v (w + 1))).2[5] = p[5] := by
    have h1 : bitsDown v (w + 1) ≠ [] := by simp
    rw [← List.dropLast_append_getLast h1, clockBits_pins]
    exact clocked_pins _ _
  obtain ⟨l2, l3, l4, l5⟩ := hlast
  simp only [encodeFrame]
  rw [deliver_cons, hb0, if_pos (by simpa using hf0),
    deliver_clockBits (rclkLow p) _ _ _ (by simpa using hf0) (by simp) e2
      (by intro h; rw [e4] at h; simp [clearStage, h]) (by rcases hc with h | ⟨h, -⟩ <;> simp [e5, h])]
  have hst : stageAfter (rclkLow p) (bitsDown v (w + 1)) (clearStage p s.sr) =
      stageAfter p (bitsDown v (w + 1)) s.sr := by
    simp only [stageAfter, e4, clearStage]; split <;> rfl
  simp only [State.setChain_sr, State.setChain_q, setChain_setChain, hst]
  obtain ⟨g2, g3, g4, g5⟩ := rclkHigh_pins (clockBits (rclkLow p) (bitsDown v (w + 1))).2
  -- the latch
  have hcl : clearStage (rclkHigh (clockBits (rclkLow p) (bitsDown v (w + 1))).2)
      (stageAfter p (bitsDown v (w + 1)) s.sr) = stageAfter p (bitsDown v (w + 1)) s.sr := by
    simp only [clearStage, g4, l4, stageAfter]; split <;> rfl
  have happ : applyByte (rclkHigh (clockBits (rclkLow p) (bitsDown v (w + 1))).2)
      ((lcdStep s.view (viewOf p s.q) s).setChain (clockBits (rclkLow p) (bitsDown v (w + 1))).2
        (stageAfter p (bitsDown v (w + 1)) s.sr) s.q) = afterFrame p v s := by
    simp only [applyByte, State.setChain_adapter, State.setChain_sr, State.setChain_q, State.setChain_view, nextSr,
      nextQ, g2, g3, l2, l3, hcl, setChain_setChain, Bool.not_true, Bool.not_false, Bool.true_and, Bool.false_and,
      Bool.false_eq_true, if_true, if_false, lcdStep_setChain,
      viewOf_congr (g5.trans l5), viewOf_congr l5]
    rfl
  rw [deliver_cons, happ]
  simp

/-- The fault-free frame: no sticky fault is recorded on the way. -/
theorem afterFrame_faults {w : Nat} (p : Byte) (v : BitVec w) (s : State) (hf : s.faults = [])
    (hc : p[5] = true ∨ (contended s.q = false ∧ contended (stageAfter p (bitsDown v w) s.sr) = false)) :
    (afterFrame p v s).faults = [] := by
  have key : ∀ (v0 : Option Word) (q : Word) (t : State), t.faults = [] → (p[5] = true ∨ contended q = false) →
      (lcdStep v0 (viewOf p q) t).faults = [] := fun v0 q t ht hq => by
    rw [lcdStep_faults_clear _ _ _ (viewOf_uncontended hq), ht]
  simp only [afterFrame, State.setChain_faults]
  exact key _ _ _ (key _ _ _ hf (hc.imp id (·.1))) (hc.imp id (·.2))

end Sys2Proof.Machine
end

