-- ==== Sys2Proof/Laws/Transmit.lean ====
section
/-! SUPPORT. One transmission, the bus cycle, admission and the outcomes of an operation: what each can do, said once
(spec/40_shift_loader.md R71, spec/60_exceptions.md R133 to R142). -/

namespace Sys2Proof.Machine

/-! The stage and the pins after a frame. -/

theorem foldl_shiftIn_getLsbD (ds : List Bool) (sr : Word) (i : Nat) :
    (ds.foldl shiftIn sr).getLsbD i =
      (decide (i < 16) && if i < ds.length then ds.reverse.getD i false else sr.getLsbD (i - ds.length)) := by
  induction ds generalizing sr with
  | nil =>
    by_cases h : i < 16
    · simp [h]
    · simp [h, BitVec.getLsbD_of_ge _ _ (Nat.le_of_not_lt h)]
  | cons d ds ih =>
    rw [List.foldl_cons, ih]
    by_cases h16 : i < 16
    · simp only [h16, decide_true, Bool.true_and, List.length_cons, List.reverse_cons]
      by_cases h1 : i < ds.length
      · have h2 : i < ds.length + 1 := by omega
        simp only [h1, h2, if_true]
        rw [List.getD_append _ _ _ _ (by simpa using h1)]
      · simp only [h1, if_false]
        by_cases h2 : i < ds.length + 1
        · have h3 : i = ds.length := by omega
          subst h3
          cases d <;> simp [shiftIn]
        · simp only [h2, if_false]
          have h3 : i - ds.length = (i - (ds.length + 1)) + 1 := by omega
          have h4 : i - (ds.length + 1) < 16 := by omega
          have h5 : i - (ds.length + 1) + 1 < 16 := by omega
          rw [h3]
          cases d <;> simp [shiftIn, h5, BitVec.getLsbD_eq_getElem h4]
    · simp [h16]

theorem bitsDown_reverse_getD {w : Nat} (v : BitVec w) (n i : Nat) (h : i < n) :
    (bitsDown v n).reverse.getD i false = v.getLsbD i := by
  induction n with
  | zero => omega
  | succ n ih =>
    rw [bitsDown_succ, List.reverse_cons]
    by_cases h1 : i < n
    · rw [List.getD_append _ _ _ _ (by simpa using h1), ih h1]
    · have h2 : i = n := by omega
      subst h2
      simp

/-- R80: the shift stage after the bits of a word of at most 16 bits. -/
theorem foldl_shiftIn_bitsDown {w : Nat} (v : BitVec w) (sr : Word) :
    (bitsDown v w).foldl shiftIn sr = (sr <<< w) ||| v.setWidth 16 := by
  apply BitVec.eq_of_getLsbD_eq
  intro i hi
  rw [foldl_shiftIn_getLsbD, bitsDown_length]
  by_cases h : i < w
  · rw [if_pos h, bitsDown_reverse_getD v w i h]
    simp [h, hi]
  · simp [h, hi, BitVec.getLsbD_of_ge v i (Nat.le_of_not_lt h), BitVec.getLsbD_eq_getElem (show i - w < 16 by omega)]

/-- R80, R81: the stage after an 8-bit frame. -/
theorem stageAfter_byte (p v : Byte) (sr : Word) :
    stageAfter p (bitsDown v 8) sr = if p[4] then (sr <<< 8) ||| v.setWidth 16 else 0 := by
  rw [stageAfter, foldl_shiftIn_bitsDown]

/-- R80, R81: the stage after a 16-bit frame. -/
theorem stageAfter_word (p : Byte) (v : Word) (sr : Word) :
    stageAfter p (bitsDown v 16) sr = if p[4] then v else 0 := by
  have h : sr <<< 16 = 0 := by
    apply BitVec.eq_of_getLsbD_eq; intro i hi; simp [hi]
  simp only [stageAfter, foldl_shiftIn_bitsDown, h]
  split <;> simp

theorem encodeFrame_pins {w : Nat} (p : Byte) (v : BitVec (w + 1)) :
    (encodeFrame p v).2 = framePins p (v.getLsbD 0) := by
  have h1 : bitsDown v (w + 1) ≠ [] := by simp
  have h2 : (bitsDown v (w + 1)).getLast h1 = v.getLsbD 0 := by
    have := bitsDown_getLast? v w
    rw [List.getLast?_eq_some_getLast h1] at this
    exact Option.some.inj this
  simp only [encodeFrame]
  rw [← List.dropLast_append_getLast h1, clockBits_pins, h2]
  generalize v.getLsbD 0 = d
  clear h1 h2
  revert p d
  decide

@[simp] theorem framePins_bits (p : Byte) (d : Bool) :
    (framePins p d)[0] = d ∧ (framePins p d)[1] = p[1] ∧ (framePins p d)[2] = true ∧ (framePins p d)[3] = true ∧
    (framePins p d)[4] = p[4] ∧ (framePins p d)[5] = p[5] ∧ (framePins p d)[6] = p[6] ∧ (framePins p d)[7] = p[7] := by
  revert p d; decide

/-! One transmission. -/

/-- R71 on `ok`: a frame delivered whole without a fault. -/
theorem sendFrame_ok {w : Nat} (v : BitVec (w + 1)) (s : State) (hf : s.faults = []) (ht : s.transport.head = .ok)
    (hclk : s.adapter[3] = true ∨ s.pins[3] = false)
    (hc : s.pins[5] = true ∨
      (contended s.q = false ∧ contended (stageAfter s.pins (bitsDown v (w + 1)) s.sr) = false)) :
    sendFrame v s =
      .go (((afterFrame s.pins v (s.setTransport s.transport.tail)).logEvents
        [.tx (encodeFrame s.pins v).1.length true]).setPins (framePins s.pins (v.getLsbD 0))) := by
  simp only [sendFrame, ht]
  rw [deliver_encodeFrame s.pins v (s.setTransport s.transport.tail) (by simpa using hf) (by simpa using hclk)
    (by simpa using hc)]
  simp only [unlessFaulted, afterFrame_faults s.pins v (s.setTransport s.transport.tail) (by simpa using hf)
    (by simpa using hc), encodeFrame_pins]

/-- Everything one transmission can do. -/
theorem sendFrame_cases {w : Nat} (v : BitVec w) (s : State) :
    (∃ m, s.transport.head = .never m ∧
      (deliver ((encodeFrame s.pins v).1.take m) (s.setTransport s.transport.tail)).faults = [] ∧
      sendFrame v s =
        .ended (deliver ((encodeFrame s.pins v).1.take m) (s.setTransport s.transport.tail)).setStuck) ∨
    (∃ bs, (deliver bs (s.setTransport s.transport.tail)).faults ≠ [] ∧
      sendFrame v s = .ended (deliver bs (s.setTransport s.transport.tail))) ∨
    (s.transport.head = .ok ∧
      (deliver (encodeFrame s.pins v).1 (s.setTransport s.transport.tail)).faults = [] ∧
      sendFrame v s = .go (((deliver (encodeFrame s.pins v).1 (s.setTransport s.transport.tail)).logEvents
        [.tx (encodeFrame s.pins v).1.length true]).setPins (encodeFrame s.pins v).2)) ∨
    (∃ m p x, s.transport.head = .fail m p x ∧
      (deliver ((encodeFrame s.pins v).1.take m) (s.setTransport s.transport.tail)).faults = [] ∧
      sendFrame v s =
        .ended (((((deliver ((encodeFrame s.pins v).1.take m) (s.setTransport s.transport.tail)).logEvents
          [.tx (encodeFrame s.pins v).1.length false]).setPins p).setSession .failed).returnCode
            (.transmissionFailed x))) := by
  simp only [sendFrame]
  rcases h : s.transport.head with _ | ⟨m, p, x⟩ | m
  · -- ok
    simp only [unlessFaulted]
    split
    · rename_i hf; exact .inr (.inr (.inl ⟨trivial, hf, rfl⟩))
    · rename_i r l hf; exact .inr (.inl ⟨(encodeFrame s.pins v).1, by simp [hf], rfl⟩)
  · -- fail
    simp only [unlessFaulted]
    split
    · rename_i hf; exact .inr (.inr (.inr ⟨m, p, x, rfl, hf, rfl⟩))
    · rename_i r l hf; exact .inr (.inl ⟨(encodeFrame s.pins v).1.take m, by simp [hf], rfl⟩)
  · -- never
    simp only [unlessFaulted]
    split
    · rename_i hf; exact .inl ⟨m, rfl, hf, rfl⟩
    · rename_i r l hf; exact .inr (.inl ⟨(encodeFrame s.pins v).1.take m, by simp [hf], rfl⟩)

/-! Runs of parts. -/

@[simp] theorem andThen_go (s : State) (k : State → Run) : (Run.go s).andThen k = k s := rfl
@[simp] theorem andThen_ended (s : State) (k : State → Run) : (Run.ended s).andThen k = .ended s := rfl
@[simp] theorem outcome_go (s : State) : (Run.go s).outcome = .next (s.returnCode .ok) := rfl
@[simp] theorem outcome_ended (s : State) : (Run.ended s).outcome = .next s := rfl

/-- Every state a run can be left in meets its predicate: `G` where the operation goes on, `E` where it is over. -/
def Run.Meets (G E : State → Prop) : Run → Prop
  | .go s => G s
  | .ended s => E s

theorem Run.Meets.andThen {G H E : State → Prop} {r : Run} {k : State → Run} (h : r.Meets G E)
    (hk : ∀ s, G s → (k s).Meets H E) : (r.andThen k).Meets H E := by
  cases r with
  | go s => exact hk s h
  | ended s => exact h

theorem Run.Meets.mono {G G' E E' : State → Prop} {r : Run} (h : r.Meets G E) (hg : ∀ s, G s → G' s)
    (he : ∀ s, E s → E' s) : r.Meets G' E' := by
  cases r with
  | go s => exact hg s h
  | ended s => exact he s h

/-- What every transmission keeps, every bus cycle keeps. -/
theorem busCycle_meets {G E : State → Prop} (h : ∀ (v : Word) s, G s → (sendFrame v s).Meets G E) (rs : Bit) (b : Byte)
    (s : State) (hs : G s) : (busCycle rs b s).Meets G E :=
  ((h _ s hs).andThen (h _)).andThen (h _)

/-- What an operation that answers a next state did: it went through and returned `OK`, it ended early, or it was
refused. -/
theorem operate_next {row : AdmissionRow} {body : State → Run} {s t : State} (h : operate row body s = .next t) :
    s.Live ∧ ((admits row s.session = true ∧ ((∃ u, body s = .go u ∧ t = u.returnCode .ok) ∨ body s = .ended t)) ∨
      (admits row s.session = false ∧ t = s.refuse .wrongState)) := by
  simp only [operate, whenLive] at h
  split at h
  · cases h
  · cases h
  · cases h
  · rename_i hf hr hs
    refine ⟨⟨hf, hr, hs⟩, ?_⟩
    split at h
    · rename_i ha
      refine .inl ⟨ha, ?_⟩
      cases hb : body s with
      | go u => rw [hb] at h; cases h; exact .inl ⟨u, rfl, rfl⟩
      | ended u => rw [hb] at h; cases h; exact .inr rfl
    · rename_i ha
      cases h
      exact .inr ⟨by simpa using ha, rfl⟩

/-- An operation that the session admits, from a state that can step. -/
theorem operate_admitted {row : AdmissionRow} {body : State → Run} {s : State} (hl : s.Live)
    (ha : admits row s.session = true) : operate row body s = (body s).outcome := by
  simp [operate, whenLive, hl.1, hl.2.1, hl.2.2, ha]

/-- An operation that the session does not admit (R115, R139). -/
theorem operate_wrongState {row : AdmissionRow} {body : State → Run} {s : State} (hl : s.Live)
    (ha : admits row s.session = false) : operate row body s = .next (s.refuse .wrongState) := by
  simp [operate, whenLive, hl.1, hl.2.1, hl.2.2, ha]

/-- Everything one step can do. -/
theorem step_next {s t : State} (h : step s = .next t) :
    s.Live ∧ ((s.pending = [] ∧ t = s) ∨
      (∃ rest, s.pending = .openAdapter :: rest ∧ t = refuseSecondSession (s.setPending rest)) ∨
      ∃ request tooEarly rest, s.pending = .operation request tooEarly :: rest ∧
        ((tooEarly = true ∧ t = (s.setPending rest).refuse .concurrentIssue) ∨
         (tooEarly = false ∧
           ((∃ why, decode request = .error why ∧ t = (s.setPending rest).refuse .illegalCommand) ∨
            (∃ i, decode request = .ok i ∧ exec i (s.setPending rest) = .next t))))) := by
  simp only [step, whenLive] at h
  split at h
  · cases h
  · cases h
  · cases h
  · rename_i hf hr hs
    refine ⟨⟨hf, hr, hs⟩, ?_⟩
    simp only [takeNext] at h
    split at h
    · rename_i hp; cases h; exact .inl ⟨hp, rfl⟩
    · rename_i issue rest hp
      cases issue with
      | openAdapter => cases h; exact .inr (.inl ⟨rest, hp, rfl⟩)
      | operation request tooEarly =>
        refine .inr (.inr ⟨request, tooEarly, rest, hp, ?_⟩)
        simp only [takeIssue, takeOperation] at h
        split at h
        · rename_i he; cases h; exact .inl ⟨he, rfl⟩
        · rename_i he
          refine .inr ⟨by simpa using he, ?_⟩
          split at h
          · rename_i i hd; exact .inr ⟨i, hd, h⟩
          · rename_i why hd; cases h; exact .inl ⟨why, hd, rfl⟩

/-- R149: what the opening of the adapter does inside a run. -/
theorem refuseSecondSession_eq (s : State) :
    refuseSecondSession s = if s.session = .ended then s else s.refuse .secondSession := by
  simp only [refuseSecondSession]
  split <;> simp_all

/-- Everything the opening of the adapter can come to (R132, R149). -/
theorem openSession_cases (opened : Bool) (p : Params) (s : State) :
    (¬ s.Live ∧ openSession opened p s = .stopped s) ∨
    (s.Live ∧ s.session ≠ .ended ∧ openSession opened p s = .stopped (s.refuse .secondSession)) ∨
    (s.Live ∧ s.session = .ended ∧ openSession opened p s =
      if opened then .session (State.start p s.adapter s.sr s.q s.transport s.floats)
      else .failed .adapterOpenFailed) := by
  simp only [openSession, refuseSecondSession_eq, State.Live]
  split <;> simp_all

/-! The words of the statements about a first frame. -/

@[simp] theorem Answer.delivers_ok (n : Nat) : Answer.ok.delivers n = true := rfl
@[simp] theorem Answer.delivers_fail (n m : Nat) (p : Byte) (x : List Byte) :
    (Answer.fail m p x).delivers n = decide (n ≤ m) := rfl
@[simp] theorem Answer.delivers_never (n m : Nat) : (Answer.never m).delivers n = decide (n ≤ m) := rfl

/-- Where more bytes are delivered, fewer are. -/
theorem Answer.delivers_mono {a : Answer} {m n : Nat} (h : m ≤ n) (ha : a.delivers n = true) :
    a.delivers m = true := by
  cases a with
  | ok => rfl
  | fail k p x => simp at ha ⊢; omega
  | never k => simp at ha ⊢; omega

@[simp] theorem State.withRegistersOf_pins (i : Instr) (s : State) : (s.withRegistersOf i).pins = s.pins := rfl
@[simp] theorem State.withRegistersOf_session (i : Instr) (s : State) :
    (s.withRegistersOf i).session = s.session := rfl
@[simp] theorem State.withRegistersOf_adapter (i : Instr) (s : State) :
    (s.withRegistersOf i).adapter = s.adapter := rfl
@[simp] theorem State.withRegistersOf_sr (i : Instr) (s : State) : (s.withRegistersOf i).sr = s.sr := rfl
@[simp] theorem State.withRegistersOf_q (i : Instr) (s : State) : (s.withRegistersOf i).q = s.q := rfl
@[simp] theorem State.withRegistersOf_pulse (i : Instr) (s : State) : (s.withRegistersOf i).pulse = s.pulse := rfl
@[simp] theorem State.withRegistersOf_log (i : Instr) (s : State) : (s.withRegistersOf i).log = s.log := rfl
@[simp] theorem State.withRegistersOf_faults (i : Instr) (s : State) : (s.withRegistersOf i).faults = s.faults := rfl
@[simp] theorem State.withRegistersOf_refused (i : Instr) (s : State) :
    (s.withRegistersOf i).refused = s.refused := rfl
@[simp] theorem State.withRegistersOf_stuck (i : Instr) (s : State) : (s.withRegistersOf i).stuck = s.stuck := rfl
@[simp] theorem State.withRegistersOf_codes (i : Instr) (s : State) : (s.withRegistersOf i).codes = s.codes := rfl
@[simp] theorem State.withRegistersOf_transport (i : Instr) (s : State) :
    (s.withRegistersOf i).transport = s.transport := rfl
@[simp] theorem State.withRegistersOf_floats (i : Instr) (s : State) : (s.withRegistersOf i).floats = s.floats := rfl
@[simp] theorem State.withRegistersOf_params (i : Instr) (s : State) : (s.withRegistersOf i).params = s.params := rfl
@[simp] theorem State.withRegistersOf_pending (i : Instr) (s : State) :
    (s.withRegistersOf i).pending = s.pending := rfl

end Sys2Proof.Machine
end

