-- ==== Sys2Proof/Laws/Bus.lean ====
section
/-! SUPPORT. One transmission over a cache that is what the adapter drives, the bits of the bus word, and one bus cycle
over ready inputs (spec/40_shift_loader.md R80 to R83, spec/30_encoding.md R52, spec/41_lcd_write_sequencer.md R85, R94). -/

namespace Sys2Proof.Machine

/-- The LCD side's step as an update of its fields, when the new view is not contended. -/
theorem lcdStep_uncontended (v0 v1 : Option Word) (s : State) (h : ∀ c, v1 = some c → contended c = false) :
    lcdStep v0 v1 s =
      { s with pulse := (lcdStep v0 v1 s).pulse, log := (lcdStep v0 v1 s).log, floats := (lcdStep v0 v1 s).floats } := by
  obtain ⟨es, hs⟩ := lcdStep_side v0 v1 s
  have hf := lcdStep_faults_clear v0 v1 s h
  rw [hs] at hf ⊢
  simp only at hf
  simp [hf]

/-- A step between views that both float or are both driven takes no float draw. -/
theorem lcdStep_floats (v0 v1 : Option Word) (s : State) (h : v0.isSome = true ∨ v1.isSome = false) :
    (lcdStep v0 v1 s).floats = s.floats := by
  match v0, v1 with
  | none, none => rfl
  | some _, none => rfl
  | none, some c => simp at h
  | some a, some c =>
    simp only [lcdStep, lcdEdge]
    split <;> (split <;> (try split) <;> (try split) <;> rfl)

/-- The LCD side's step looks at no transport. -/
theorem lcdStep_setTransport (v0 v1 : Option Word) (d : Draws Answer) (s : State) :
    lcdStep v0 v1 (s.setTransport d) = (lcdStep v0 v1 s).setTransport d := by
  match v0, v1 with
  | none, none => rfl
  | some _, none => rfl
  | none, some c => rfl
  | some x, some c =>
    simp only [lcdStep]
    cases contended c <;> simp only [lcdEdge, if_true, if_false, Bool.false_eq_true] <;>
      (split <;> (try split) <;> (try split) <;> rfl)

/-- A transmission that answers `ok` over a cache that is what the adapter drives: the LCD side takes the one step of the
latch, and the chain holds the new stage. -/
theorem sendFrame_synced {w : Nat} (v : BitVec (w + 1)) (s : State) (hf : s.faults = []) (ht : s.transport.head = .ok)
    (ha : s.adapter = s.pins) (next : Word) (hn : stageAfter s.pins (bitsDown v (w + 1)) s.sr = next)
    (hc : s.Uncontended s.pins next) :
    sendFrame v s = .go { s with
      pins := framePins s.pins (v.getLsbD 0), adapter := framePins s.pins (v.getLsbD 0), sr := next, q := next,
      pulse := (lcdStep s.view (viewOf s.pins next) s).pulse,
      log := (lcdStep s.view (viewOf s.pins next) s).log ++ [.tx (4 * (w + 1) + 2) true],
      transport := s.transport.tail } := by
  subst hn
  have hclk : s.adapter[3] = true ∨ s.pins[3] = false := by rw [ha]; cases s.pins[3] <;> simp
  have hlen : (encodeFrame s.pins v).1.length = 4 * (w + 1) + 2 := by simp [encodeFrame, clockBits_length]
  rw [sendFrame_ok v s hf ht hclk hc, hlen]
  have hv : viewOf s.pins s.q = s.view := by simp [State.view, ha]
  have h1 : ∀ t : State, t.faults = [] → lcdStep s.view s.view t = t := fun t _ =>
    lcdStep_same s.view t (by rw [← hv]; exact viewOf_uncontended (hc.imp id (·.1)))
  have h2 := viewOf_uncontended (p := s.pins) (hc.imp id (·.2))
  have h3 : (s.setTransport s.transport.tail).view = s.view := rfl
  simp only [afterFrame, State.setTransport_sr, State.setTransport_q, h3, hv, encodeFrame_pins]
  rw [h1 _ (by simpa using hf)]
  have h4 := lcdStep_uncontended s.view _ s h2
  have h5 := lcdStep_floats s.view (viewOf s.pins (stageAfter s.pins (bitsDown v (w + 1)) s.sr)) s (by
    simp only [State.view, ha, viewOf]; split <;> simp)
  rw [lcdStep_setTransport]
  generalize lcdStep s.view (viewOf s.pins (stageAfter s.pins (bitsDown v (w + 1)) s.sr)) s = u at h4 h5 ⊢
  rw [h5] at h4
  rw [h4]
  rfl
/-! The bus word. -/

theorem bitAt_getLsbD (x : Bool) (pos j : Nat) : (bitAt x pos).getLsbD j = (x && decide (j = pos) && decide (j < 16)) := by
  cases x
  · simp [bitAt]
  · simp only [bitAt, if_true, BitVec.getLsbD_shiftLeft, BitVec.getLsbD_one, Bool.true_and]
    rw [Bool.eq_iff_iff]
    simp
    omega

theorem byteBitAt_getLsbD (x : Bool) (pos j : Nat) :
    (byteBitAt x pos).getLsbD j = (x && decide (j = pos) && decide (j < 8)) := by
  cases x
  · simp [byteBitAt]
  · simp only [byteBitAt, if_true, BitVec.getLsbD_shiftLeft, BitVec.getLsbD_one, Bool.true_and]
    rw [Bool.eq_iff_iff]
    simp
    omega

/-- R52: the bits of `Map(b)`. -/
theorem mapByte_getLsbD (dp : DataHiPos) (b : Byte) (j : Nat) :
    (mapByte dp b).getLsbD j =
      (decide (j < 16) && [0, 1, 2, 3, 4, 5, 6, 7].any fun k => b.getLsbD k && decide (j = dataPos dp k)) := by
  simp only [mapByte, List.foldr_cons, List.foldr_nil, BitVec.getLsbD_or, bitAt_getLsbD, List.any_cons, List.any_nil,
    Bool.or_false]
  by_cases h : j < 16 <;> simp [h]

/-- R52: the bits of `Unmap(q)`. -/
theorem unmapWord_getLsbD (dp : DataHiPos) (q : Word) (k : Nat) (hk : k < 8) :
    (unmapWord dp q).getLsbD k = q.getLsbD (dataPos dp k) := by
  have : k = 0 ∨ k = 1 ∨ k = 2 ∨ k = 3 ∨ k = 4 ∨ k = 5 ∨ k = 6 ∨ k = 7 := by omega
  rcases this with rfl | rfl | rfl | rfl | rfl | rfl | rfl | rfl <;>
    simp [unmapWord, List.foldr_cons, List.foldr_nil, BitVec.getLsbD_or, byteBitAt_getLsbD, -BitVec.getLsbD_eq_getElem]

/-- Whatever the data-pin map, the bus word has RS at bit 8 and E and RW low (R84). -/
theorem busWord_control (dp : DataHiPos) (rs : Bit) (b : Byte) :
    (busWord dp rs b).getLsbD 8 = rs.getLsbD 0 ∧ (busWord dp rs b).getLsbD 9 = false ∧
      (busWord dp rs b).getLsbD 10 = false := by
  have h : ∀ j, j = 8 ∨ j = 9 ∨ j = 10 → (mapByte dp b).getLsbD j = false := by
    intro j hj
    have h5 := dp.d5.isLt
    have h6 := dp.d6.isLt
    have h7 := dp.d7.isLt
    rw [mapByte_getLsbD]
    simp [dataPos]
    omega
  simp only [busWord, BitVec.getLsbD_or, h 8 (by simp), h 9 (by simp), h 10 (by simp)]
  simp

/-- R53: no two data bits share a position. -/
theorem dataPos_inj {dp : DataHiPos} (hd : dp.distinct = true) {j k : Nat} (hj : j < 8) (hk : k < 8)
    (h : dataPos dp j = dataPos dp k) : j = k := by
  obtain ⟨⟨x, hx⟩, ⟨y, hy⟩, ⟨z, hz⟩⟩ := dp
  simp only [DataHiPos.distinct, Bool.and_eq_true, bne_iff_ne, ne_eq, Fin.mk.injEq] at hd
  have h1 : j = 0 ∨ j = 1 ∨ j = 2 ∨ j = 3 ∨ j = 4 ∨ j = 5 ∨ j = 6 ∨ j = 7 := by omega
  have h2 : k = 0 ∨ k = 1 ∨ k = 2 ∨ k = 3 ∨ k = 4 ∨ k = 5 ∨ k = 6 ∨ k = 7 := by omega
  rcases h1 with rfl | rfl | rfl | rfl | rfl | rfl | rfl | rfl <;>
    rcases h2 with rfl | rfl | rfl | rfl | rfl | rfl | rfl | rfl <;> simp [dataPos] at h ⊢ <;> omega

/-- Where a data line can be: below RS, or above E. -/
theorem dataPos_lt (dp : DataHiPos) {k : Nat} (hk : k < 8) : dataPos dp k < 8 ∨ 10 < dataPos dp k ∧ dataPos dp k < 16 := by
  obtain ⟨⟨x, hx⟩, ⟨y, hy⟩, ⟨z, hz⟩⟩ := dp
  have h2 : k = 0 ∨ k = 1 ∨ k = 2 ∨ k = 3 ∨ k = 4 ∨ k = 5 ∨ k = 6 ∨ k = 7 := by omega
  rcases h2 with rfl | rfl | rfl | rfl | rfl | rfl | rfl | rfl <;> simp [dataPos] <;> omega

/-- R52: the data line of bit `k` carries bit `k`. -/
theorem busWord_data (dp : DataHiPos) (rs : Bit) (b : Byte) (hd : dp.distinct = true) {k : Nat} (hk : k < 8) :
    (busWord dp rs b).getLsbD (dataPos dp k) = b.getLsbD k := by
  have h1 : (busWord dp rs b).getLsbD (dataPos dp k) = (mapByte dp b).getLsbD (dataPos dp k) := by
    simp only [busWord, BitVec.getLsbD_or, BitVec.getLsbD_shiftLeft, BitVec.getLsbD_setWidth]
    rcases dataPos_lt dp hk with h | ⟨h, -⟩
    · simp [h]
    · simp [BitVec.getLsbD_of_ge rs (dataPos dp k - 8) (by omega)]
  have h2 : dataPos dp k < 16 := by have := dataPos_lt dp hk; omega
  rw [h1, mapByte_getLsbD, Bool.eq_iff_iff]
  simp only [h2, decide_true, Bool.true_and, List.any_eq_true, Bool.and_eq_true, decide_eq_true_eq]
  constructor
  · rintro ⟨j, hj, hb, he⟩
    have hj8 : j < 8 := by simp at hj; omega
    rw [dataPos_inj hd hk hj8 he]
    exact hb
  · intro hb
    exact ⟨k, by simp; omega, hb, rfl⟩


/-! The bus cycle. -/

theorem eMask_getLsbD (i : Nat) : eMask.getLsbD i = decide (i = 10) := by
  by_cases h : i < 16
  · revert i; decide
  · rw [BitVec.getLsbD_of_ge _ _ (by omega)]; simp; omega

/-- E and RW of a view, and the view without E, where only bit 10 is raised over a word with E and RW low. -/
theorem raised_view (x : Word) (h9 : x.getLsbD 9 = false) (h10 : x.getLsbD 10 = false) :
    eOf x = false ∧ rwOf x = false ∧ eOf (x ||| eMask) = true ∧ rwOf (x ||| eMask) = false ∧
    withoutE x = x ∧ withoutE (x ||| eMask) = x ∧ x &&& ~~~eMask = x ∧ (x ||| eMask).getLsbD 0 = x.getLsbD 0 := by
  have e1 : x &&& ~~~eMask = x := by
    apply BitVec.eq_of_getLsbD_eq
    intro i hi
    simp only [BitVec.getLsbD_and, BitVec.getLsbD_not, eMask_getLsbD, hi, decide_true, Bool.true_and]
    by_cases h : i = 10
    · subst h; simp [h10, -BitVec.getLsbD_eq_getElem]
    · simp [h]
  have e2 : (x ||| eMask) &&& ~~~eMask = x := by
    rw [← e1]
    apply BitVec.eq_of_getLsbD_eq
    intro i hi
    simp only [BitVec.getLsbD_and, BitVec.getLsbD_or, BitVec.getLsbD_not, eMask_getLsbD, hi, decide_true, Bool.true_and]
    by_cases h : i = 10 <;> simp [h]
  refine ⟨?_, ?_, ?_, ?_, e1, e2, e1, ?_⟩
  · simpa [eOf] using h10
  · simpa [rwOf] using h9
  · simp [eOf, eMask]
  · have := eMask_getLsbD 9
    simp [rwOf, eMask]; simpa using h9
  · simp [eMask]

/-- Views that are driven, uncontended and with E low leave the LCD side alone. -/
theorem lcdStep_low (a y : Word) (s : State) (ha : eOf a = false) (hy : eOf y = false) :
    lcdStep (some a) (some y) s = s := by
  simp [lcdStep, contended, lcdEdge, ha, hy]

/-- R91: E rises alone. -/
theorem lcdStep_rise (a y : Word) (s : State) (ha : eOf a = false) (hy : eOf y = true) (hr : rwOf y = false)
    (hw : withoutE a = withoutE y) : lcdStep (some a) (some y) s = s.setPulse (.clean (withoutE y)) := by
  simp [lcdStep, contended, lcdEdge, ha, hy, hr, hw]

/-- R92: E falls over a clean pulse. -/
theorem lcdStep_fall (a y : Word) (s : State) (ha : eOf a = true) (hy : eOf y = false)
    (hp : s.pulse = .clean (withoutE y)) :
    lcdStep (some a) (some y) s = (s.logEvents [.transfer ((withoutE y).extractLsb' 8 1) ((withoutE y).extractLsb' 9 1)
      (unmapWord s.params.dataHi (withoutE y))]).setPulse .idle := by
  simp [lcdStep, contended, lcdEdge, ha, hy, hp, latched]

/-- R94: one bus cycle over ready inputs, when its three transmissions answer `ok`. -/
theorem busCycle_ready (rs : Bit) (b : Byte) (s : State) (hf : s.faults = []) (hr : s.LcdReady)
    (hd : s.params.dataHi.distinct = true) (ht : s.transport.oks 3 = true) :
    busCycle rs b s = .go (s.afterWrites [(rs, b)]) ∧ (s.afterWrites [(rs, b)]).LcdReady := by
  obtain ⟨ha, h4, h5, hq, hp⟩ := hr
  obtain ⟨h8, h9, h10⟩ := busWord_control s.params.dataHi rs b
  obtain ⟨w1, w2, w3, w4, w5, w6, w7, w8⟩ := raised_view _ h9 h10
  have hdata : unmapWord s.params.dataHi (busWord s.params.dataHi rs b) = b := by
    apply BitVec.eq_of_getLsbD_eq
    intro k hk
    rw [unmapWord_getLsbD _ _ _ hk, busWord_data _ _ _ hd hk]
  have hrs : (busWord s.params.dataHi rs b).extractLsb' 8 1 = rs := by
    apply BitVec.eq_of_getLsbD_eq
    intro k hk
    have : k = 0 := by omega
    subst this
    simpa using h8
  have hrw : (busWord s.params.dataHi rs b).extractLsb' 9 1 = 0 := by
    apply BitVec.eq_of_getLsbD_eq
    intro k hk
    have : k = 0 := by omega
    subst this
    simpa using h9
  simp only [Draws.oks, Bool.and_eq_true, beq_iff_eq, Bool.and_true] at ht
  obtain ⟨t1, t2, t3⟩ := ht
  generalize hw : busWord s.params.dataHi rs b = word at *
  have hc : ∀ y : Word, rwOf y = false → contended y = false := fun y h => by simp [contended, h]
  have he : ∀ y : Word, eOf y = false → contended y = false := fun y h => by simp [contended, h]
  have hst : ∀ (p : Byte) (v sr : Word), p[4] = true → stageAfter p (bitsDown v 16) sr = v := fun p v sr h => by
    rw [stageAfter_word, if_pos h]
  have hfp : ∀ d, (framePins s.pins d)[4] = true ∧ (framePins s.pins d)[5] = false := fun d => by
    obtain ⟨-, -, -, -, e4, e5, -, -⟩ := framePins_bits s.pins d
    exact ⟨e4.trans h4, e5.trans h5⟩
  have hfpp : ∀ d e, framePins (framePins s.pins d) e = framePins s.pins e := by
    intro d e; generalize s.pins = p; revert p d e; decide
  have hv : ∀ (p : Byte) (q : Word), p[5] = false → viewOf p q = some q := fun p q h => by simp [viewOf, h]
  have hv0 : s.view = some s.q := by simp [State.view, viewOf, ha, h5]
  -- phase 1
  let s1 : State := { s with
    pins := framePins s.pins (word.getLsbD 0), adapter := framePins s.pins (word.getLsbD 0), sr := word, q := word,
    log := s.log ++ [.tx 66 true], transport := s.transport.tail }
  have p1 : sendFrame word s = .go s1 := by
    rw [sendFrame_synced word s hf t1 ha word (hst _ _ _ h4) (.inr ⟨he _ hq, he _ w1⟩), hv0, hv _ _ h5,
      lcdStep_low _ _ _ hq w1]
  have v1 : s1.view = some word := hv _ _ (hfp _).2
  -- phase 2
  let s2 : State := { s1 with
    sr := word ||| eMask, q := word ||| eMask, pulse := .clean word, log := s1.log ++ [.tx 66 true],
    transport := s1.transport.tail }
  have p2 : sendFrame (word ||| eMask) s1 = .go s2 := by
    have k := sendFrame_synced (word ||| eMask) s1 hf t2 rfl (word ||| eMask) (hst _ _ _ (hfp _).1)
      (.inr ⟨he _ w1, hc _ w4⟩)
    rw [v1, hv _ _ (hfp _).2, lcdStep_rise _ _ _ w1 w3 w4 (w5.trans w6.symm), w6, w8] at k
    rw [k]
    simp only [s1, s2, hfpp]
    rfl
  have v2 : s2.view = some (word ||| eMask) := hv _ _ (hfp _).2
  -- phase 3
  let s3 : State := { s2 with
    sr := word, q := word, pulse := .idle, log := s2.log ++ [.transfer rs 0 b] ++ [.tx 66 true],
    transport := s2.transport.tail }
  have p3 : sendFrame word s2 = .go s3 := by
    have k := sendFrame_synced word s2 hf t3 rfl word (hst _ _ _ (hfp _).1) (.inr ⟨hc _ w4, he _ w1⟩)
    rw [v2, hv _ _ (hfp _).2, lcdStep_fall _ _ _ w3 w1 (by rw [w5]), w5, hrs, hrw] at k
    have hd2 : unmapWord s2.params.dataHi word = b := hdata
    rw [hd2] at k
    rw [k]
    simp only [s1, s2, s3, hfpp]
    rfl
  have hs3 : s3 = s.afterWrites [(rs, b)] := by
    simp only [State.afterWrites, hw, s1, s2, s3, Draws.skip, ← hp]
    simp
  rw [← hs3]
  refine ⟨?_, rfl, (hfp _).1, (hfp _).2, w1, rfl⟩
  simp only [busCycle, hw, w7, p1, p2, p3, andThen_go]

/-! Several bus cycles. -/

theorem oks_add (d : Draws Answer) (m n : Nat) : d.oks (m + n) = (d.oks m && (d.skip m).oks n) := by
  induction m generalizing d with
  | zero => simp [Draws.oks, Draws.skip]
  | succ m ih => rw [Nat.succ_add]; simp [Draws.oks, Draws.skip, ih, Bool.and_assoc]

theorem skip_add {α : Type} (d : Draws α) (m n : Nat) : d.skip (m + n) = (d.skip m).skip n := by
  induction m generalizing d with
  | zero => simp [Draws.skip]
  | succ m ih => rw [Nat.succ_add]; simp [Draws.skip, ih]

theorem afterWrites_append (ws vs : List (Bit × Byte)) (s : State) :
    s.afterWrites (ws ++ vs) = (s.afterWrites ws).afterWrites vs := by
  induction ws generalizing s with
  | nil => rfl
  | cons w ws ih => simp only [List.cons_append, State.afterWrites, ih]

/-- What clean bus writes leave as it was. -/
theorem afterWrites_keeps (ws : List (Bit × Byte)) (s : State) :
    (s.afterWrites ws).faults = s.faults ∧ (s.afterWrites ws).refused = s.refused ∧
    (s.afterWrites ws).params = s.params ∧ (s.afterWrites ws).session = s.session ∧
    (s.afterWrites ws).codes = s.codes ∧ (s.afterWrites ws).regEntry = s.regEntry ∧
    (s.afterWrites ws).regDisplay = s.regDisplay ∧ (s.afterWrites ws).regShift = s.regShift ∧
    (s.afterWrites ws).regFunction = s.regFunction ∧
    (s.afterWrites ws).transport = s.transport.skip (3 * ws.length) := by
  induction ws generalizing s with
  | nil => simp [State.afterWrites, Draws.skip]
  | cons w ws ih =>
    simp only [State.afterWrites, ih, List.length_cons, Nat.mul_add, Nat.mul_one, true_and]
    rw [Nat.add_comm, skip_add]

end Sys2Proof.Machine
end

