-- ==== Sys2Proof/Laws/Decode.lean ====
section
/-! SUPPORT. Fields of joined bit vectors, for facts about the encoder and the decoder. -/

namespace Sys2Proof

/-- A field that lies in the low part of a join. -/
theorem extract_low {m n : Nat} (a : BitVec m) (b : BitVec n) (lo len : Nat) (h : lo + len ≤ n) :
    (a ++ b).extractLsb' lo len = b.extractLsb' lo len := by
  apply BitVec.eq_of_getLsbD_eq
  intro i hi
  have : lo + i < n := by omega
  simp [BitVec.getLsbD_append, this]

/-- A field that lies in the high part of a join. -/
theorem extract_high {m n : Nat} (a : BitVec m) (b : BitVec n) (lo len : Nat) (h : n ≤ lo) :
    (a ++ b).extractLsb' lo len = a.extractLsb' (lo - n) len := by
  apply BitVec.eq_of_getLsbD_eq
  intro i hi
  have h1 : ¬ lo + i < n := by omega
  have h2 : lo + i - n = lo - n + i := by omega
  simp [BitVec.getLsbD_append, h1, h2]

/-- The whole of a bit vector as a field. -/
theorem extract_all {n : Nat} (b : BitVec n) : b.extractLsb' 0 n = b := by simp

/-- A mask over a join is a mask over each part. -/
theorem and_join {m n : Nat} (a x : BitVec m) (b y : BitVec n) : (a ++ b) &&& (x ++ y) = (a &&& x) ++ (b &&& y) := by
  apply BitVec.eq_of_getLsbD_eq
  intro i hi
  simp only [BitVec.getLsbD_and, BitVec.getLsbD_append]
  split <;> rfl

/-- A field of the high bits beside the field below it. -/
theorem extract_join {n : Nat} (x : BitVec n) (lo k l : Nat) :
    x.extractLsb' (lo + l) k ++ x.extractLsb' lo l = x.extractLsb' lo (k + l) := by
  apply BitVec.eq_of_getLsbD_eq
  intro i hi
  simp only [BitVec.getLsbD_append, BitVec.getLsbD_extractLsb']
  by_cases h : i < l
  · have h1 : i < k + l := by omega
    simp [h, h1]
  · have h1 : i - l < k := by omega
    have h2 : lo + l + (i - l) = lo + i := by omega
    simp [h, h1, h2, hi]

@[simp] theorem ofBits_bits (x : Ctl) : Ctl.ofBits x.bits = some x := by cases x <;> rfl

/-- The bits of a ctl value that `ofBits` reads are those of the value. -/
theorem bits_ofBits {x : BitVec 2} {k : Ctl} (h : Ctl.ofBits x = some k) : k.bits = x := by
  revert x k
  intro x k
  revert x
  cases k <;> decide

theorem needZero_ok {cw : BitVec 32} {lo n : Nat} {k : Except Reject Instr} {i : Instr} :
    needZero cw lo n k = .ok i ↔ cw.extractLsb' lo n = 0 ∧ k = .ok i := by
  simp only [needZero]; split <;> simp_all

theorem needCtl_ok {cw : BitVec 32} {lo : Nat} {k : Ctl → Except Reject Instr} {i : Instr} :
    needCtl cw lo k = .ok i ↔ ∃ x : Ctl, cw.extractLsb' lo 2 = x.bits ∧ k x = .ok i := by
  simp only [needCtl]
  split
  · rename_i x hx
    constructor
    · intro h; exact ⟨x, (bits_ofBits hx).symm, h⟩
    · rintro ⟨y, hy, h⟩
      rw [hy, ofBits_bits] at hx
      cases hx; exact h
  · rename_i hx
    constructor
    · intro h; cases h
    · rintro ⟨y, hy, h⟩
      rw [hy, ofBits_bits] at hx
      cases hx

end Sys2Proof
end

