-- ==== Sys2Proof/Laws/PerInstr.lean ====
section
/-! SUPPORT. Facts about every instruction as syntax, one lemma per constructor. -/

namespace Sys2Proof.Laws

/-- A row of the opcode table: the bits it fixes and their values. -/
inductive RowBits where
  | cw (mask fixed : BitVec 32)
  | lcd (mask fixed : BitVec 10)

/-- The request shows a row's fixed bits. -/
def RowBits.shownBy : RowBits → Request → Prop
  | .cw mask fixed, .command word _ => word &&& mask = fixed
  | .lcd mask fixed, .lcd word => word &&& mask = fixed
  | .cw _ _, .lcd _ => False
  | .lcd _ _, .command _ _ => False

/-- spec/opcode_table.json: "match" and "mask" of the command words, the 0s and 1s of "encoding" of the LCD words (for
the two rows whose low bits R55 leaves open, without those: assumption log 7). -/
def rowBits : Instr → RowBits
  | .shiftOut8 _ => .cw 0xFFFFFF00 0x01000000
  | .shiftOut16 _ => .cw 0xFFFF0000 0x01010000
  | .busWrite _ _ => .cw 0xFFFFFE00 0x02000000
  | .srClear _ => .cw 0xFFFFFFFE 0x03000000
  | .srOe _ => .cw 0xFFFFFFFE 0x04000000
  | .backlight _ => .cw 0xFFFFFFFE 0x05000000
  | .backlightFor _ => .cw 0xFF000000 0x06000000
  | .configure => .cw 0xFFFFFFFF 0x10000000
  | .init _ => .cw 0xFFFFFFFE 0x11000000
  | .clearDisplay => .cw 0xFFFFFFFF 0x12000000
  | .writeText _ _ => .cw 0xFFFFFF00 0x13000000
  | .setEntryMode _ _ => .cw 0xFFFFFFF0 0x20000000
  | .setDisplay _ _ _ => .cw 0xFFFFFFC0 0x21000000
  | .setShift _ _ => .cw 0xFFFFFF0F 0x22000000
  | .setFunction _ _ _ => .cw 0xFFFFFC0F 0x23000000
  | .sessionEnd => .cw 0xFFFFFFFF 0x30000000
  | .lcdClearDisplay => .lcd 0b1111111111 0b0000000001
  | .lcdEntryModeSet _ _ => .lcd 0b1111111100 0b0000000100
  | .lcdDisplayControl _ _ _ => .lcd 0b1111111000 0b0000001000
  | .lcdCursorDisplayShift _ _ _ => .lcd 0b1111110000 0b0000010000
  | .lcdFunctionSet _ _ _ _ => .lcd 0b1111100000 0b0000100000
  | .lcdSetDdramAddress _ => .lcd 0b1110000000 0b0010000000
  | .lcdWriteData _ => .lcd 0b1100000000 0b1000000000
  | .lcdReturnHome _ => .lcd 0b1111111110 0b0000000010
  | .lcdSetCgramAddress _ => .lcd 0b1111000000 0b0001000000

/-- The encoder gives a well-formed instruction a word with its row's fixed bits. -/
def RowPattern.Statement (i : Instr) : Prop := i.wellFormed = true → (rowBits i).shownBy (encode i)

theorem RowPattern.shiftOut8 (v : Byte) : RowPattern.Statement (.shiftOut8 v) := by
  intro _
  show _ &&& ((0xFFFFFF#24 : BitVec 24) ++ 0#8) = _
  rw [and_join]
  simp

theorem RowPattern.shiftOut16 (v : Word) : RowPattern.Statement (.shiftOut16 v) := by
  intro _
  show (0x01#8 ++ 0#7 ++ 1#1 ++ v) &&& (0xFFFF#16 ++ 0#16) = _
  rw [and_join]
  simp

theorem RowPattern.busWrite (rs : Bit) (b : Byte) : RowPattern.Statement (.busWrite rs b) := by
  intro _
  show _ &&& ((0x7FFFFF#23 : BitVec 23) ++ 0#1 ++ 0#8) = _
  rw [and_join, and_join]
  simp

theorem RowPattern.srClear (level : Bit) : RowPattern.Statement (.srClear level) := by
  intro _
  show _ &&& ((0x7FFFFFFF#31 : BitVec 31) ++ 0#1) = _
  rw [and_join]
  simp

theorem RowPattern.srOe (level : Bit) : RowPattern.Statement (.srOe level) := by
  intro _
  show _ &&& ((0x7FFFFFFF#31 : BitVec 31) ++ 0#1) = _
  rw [and_join]
  simp

theorem RowPattern.backlight (on : Bit) : RowPattern.Statement (.backlight on) := by
  intro _
  show _ &&& ((0x7FFFFFFF#31 : BitVec 31) ++ 0#1) = _
  rw [and_join]
  simp

theorem RowPattern.backlightFor (seconds : Nat) : RowPattern.Statement (.backlightFor seconds) := by
  intro _
  show _ &&& ((0xFF#8 : BitVec 8) ++ 0#24) = _
  rw [and_join]
  simp

theorem RowPattern.configure : RowPattern.Statement (.configure) := by
  intro _
  rfl

theorem RowPattern.init (withEntry : Bit) : RowPattern.Statement (.init withEntry) := by
  intro _
  show _ &&& ((0x7FFFFFFF#31 : BitVec 31) ++ 0#1) = _
  rw [and_join]
  simp

theorem RowPattern.clearDisplay : RowPattern.Statement (.clearDisplay) := by
  intro _
  rfl

theorem RowPattern.writeText (line : Nat) (text : List Byte) : RowPattern.Statement (.writeText line text) := by
  intro _
  show _ &&& ((0xFFFFFF#24 : BitVec 24) ++ 0#8) = _
  rw [and_join]
  simp

theorem RowPattern.setEntryMode (id d : Ctl) : RowPattern.Statement (.setEntryMode id d) := by
  intro _
  cases id <;> cases d <;> rfl

theorem RowPattern.setDisplay (d c b : Ctl) : RowPattern.Statement (.setDisplay d c b) := by
  intro _
  cases d <;> cases c <;> cases b <;> rfl

theorem RowPattern.setShift (sc rl : Ctl) : RowPattern.Statement (.setShift sc rl) := by
  intro _
  cases sc <;> cases rl <;> rfl

theorem RowPattern.setFunction (dl n f : Ctl) : RowPattern.Statement (.setFunction dl n f) := by
  intro _
  cases dl <;> cases n <;> cases f <;> rfl

theorem RowPattern.sessionEnd : RowPattern.Statement (.sessionEnd) := by
  intro _
  rfl

theorem RowPattern.lcdClearDisplay : RowPattern.Statement (.lcdClearDisplay) := by
  intro _
  rfl

theorem RowPattern.lcdEntryModeSet (id d : Bit) : RowPattern.Statement (.lcdEntryModeSet id d) := by
  intro _
  show _ = (_ : BitVec 10)
  revert id d
  decide

theorem RowPattern.lcdDisplayControl (d c b : Bit) : RowPattern.Statement (.lcdDisplayControl d c b) := by
  intro _
  show _ = (_ : BitVec 10)
  revert d c b
  decide

theorem RowPattern.lcdCursorDisplayShift (sc rl : Bit) (low : BitVec 2) : RowPattern.Statement (.lcdCursorDisplayShift sc rl low) := by
  intro _
  show _ = (_ : BitVec 10)
  revert sc rl low
  decide

theorem RowPattern.lcdFunctionSet (dl n f : Bit) (low : BitVec 2) : RowPattern.Statement (.lcdFunctionSet dl n f low) := by
  intro _
  show _ = (_ : BitVec 10)
  revert dl n f low
  decide

theorem RowPattern.lcdSetDdramAddress (a : BitVec 7) : RowPattern.Statement (.lcdSetDdramAddress a) := by
  intro _
  show _ = (_ : BitVec 10)
  revert a
  decide

theorem RowPattern.lcdWriteData (d : Byte) : RowPattern.Statement (.lcdWriteData d) := by
  intro _
  show _ = (_ : BitVec 10)
  revert d
  decide

theorem RowPattern.lcdReturnHome (low : Bit) : RowPattern.Statement (.lcdReturnHome low) := by
  intro _
  show _ = (_ : BitVec 10)
  revert low
  decide

theorem RowPattern.lcdSetCgramAddress (a : BitVec 6) : RowPattern.Statement (.lcdSetCgramAddress a) := by
  intro _
  show _ = (_ : BitVec 10)
  revert a
  decide

end Sys2Proof.Laws
end

