-- ==== Sys2Proof/Tests/Slice0.lean ====
section
/-! SUPPORT. Small tests, and for each statement a state and operands that meet its hypotheses. Expected results are from
spec/95_test_vectors.md (the vector's name stands beside each test) or worked by hand from the rule named. -/

namespace Sys2Proof.Tests

open Sys2Proof.Machine

/-! What the well-formedness checks refuse. -/

theorem test_duration_over_24_bits_refused : (Instr.backlightFor 16777216).wellFormed = false := by decide
theorem test_longest_duration_wellFormed : (Instr.backlightFor 16777215).wellFormed = true := by decide
theorem test_line_over_8_bits_refused : (Instr.writeText 256 []).wellFormed = false := by decide
theorem test_bad_line_is_wellFormed : (Instr.writeText 255 [0x41]).wellFormed = true := by decide
theorem test_shared_data_pin_refused :
    DataHiPos.distinct ⟨5, 5, 7⟩ = false ∧ DataHiPos.distinct ⟨5, 6, 5⟩ = false ∧
      DataHiPos.distinct ⟨5, 6, 6⟩ = false := by decide
theorem test_bad_params_refused :
    Params.wellFormed { Params.default with dataHi := ⟨0, 0, 1⟩ } = false ∧
    Params.wellFormed { Params.default with seedEntry := 0x0E } = false ∧
    Params.wellFormed { Params.default with seedDisplay := 0x04 } = false ∧
    Params.wellFormed { Params.default with seedShift := 0x11 } = false ∧
    Params.wellFormed { Params.default with seedFunction := 0x18 } = false ∧
    Params.wellFormed Params.default = true := by decide

/-! Decoding: a word for every constructor, its fields written out from spec/30_encoding.md R57, R58 and R55. -/

theorem test_decode_loader :
    decodeTableWord 32 0b00000001_0000000_0_00000000_10100101 = some (.shiftOut8 0xA5) ∧
    decodeTableWord 32 0b00000001_0000000_1_0000100000000000 = some (.shiftOut16 0x0800) := by decide

theorem test_decode_bus_write :
    decodeTableWord 32 0b00000010_000000000000000_1_01000001 = some (.busWrite 1 0x41) ∧
    decodeTableWord 32 0b00000010_000000000000000_0_00000001 = some (.busWrite 0 0x01) := by decide

theorem test_decode_side_channels :
    decodeTableWord 32 0b00000011_00000000000000000000000_1 = some (.srClear 1) ∧
    decodeTableWord 32 0b00000100_00000000000000000000000_0 = some (.srOe 0) ∧
    decodeTableWord 32 0b00000101_00000000000000000000000_1 = some (.backlight 1) ∧
    decodeTableWord 32 0b00000110_100000000000000000000101 = some (.backlightFor 8388613) := by decide

theorem test_decode_session :
    decodeTableWord 32 0b00010000_000000000000000000000000 = some .configure ∧
    decodeTableWord 32 0b00010001_00000000000000000000000_1 = some (.init 1) ∧
    decodeTableWord 32 0b00010010_000000000000000000000000 = some .clearDisplay ∧
    decodeTableWord 32 0b00110000_000000000000000000000000 = some .sessionEnd := by decide

theorem test_decode_write_text :
    decode (.command 0b00010011_0000000000000000_00000010 [0x48, 0x69]) = .ok (.writeText 2 [0x48, 0x69]) := by decide

theorem test_decode_registers :
    decodeTableWord 32 0b00100000_00000000000000000000_11_10 = some (.setEntryMode .set .clear) ∧
    decodeTableWord 32 0b00100001_000000000000000000_00_10_11 = some (.setDisplay .keep .clear .set) ∧
    decodeTableWord 32 0b00100010_0000000000000000_10_11_0000 = some (.setShift .clear .set) ∧
    decodeTableWord 32 0b00100011_00000000000000_11_00_10_0000 = some (.setFunction .set .keep .clear) := by decide

theorem test_decode_lcd_words :
    decodeTableWord 16 0b0_0_00000001 = some .lcdClearDisplay ∧
    decodeTableWord 16 0b0_0_0000001_1 = some (.lcdReturnHome 1) ∧
    decodeTableWord 16 0b0_0_000001_1_0 = some (.lcdEntryModeSet 1 0) ∧
    decodeTableWord 16 0b0_0_00001_1_0_1 = some (.lcdDisplayControl 1 0 1) ∧
    decodeTableWord 16 0b0_0_0001_0_1_10 = some (.lcdCursorDisplayShift 0 1 2) ∧
    decodeTableWord 16 0b0_0_001_1_1_0_01 = some (.lcdFunctionSet 1 1 0 1) ∧
    decodeTableWord 16 0b0_0_01_100001 = some (.lcdSetCgramAddress 0x21) ∧
    decodeTableWord 16 0b0_0_1_1000000 = some (.lcdSetDdramAddress 0x40) ∧
    decodeTableWord 16 0b1_0_01000001 = some (.lcdWriteData 0x41) := by decide

/-- The illegal words of the vectors' table, each with its reason (R61). -/
theorem test_decode_rejects :
    [0x00000000, 0x07000000, 0x14000000, 0x24000000, 0x31000000, 0xFF000000, 0x01000100, 0x01020000, 0x02000200,
      0x03000002, 0x10000001, 0x13000100, 0x20000001, 0x20000010, 0x22000008, 0x22000040].map
        (fun w => decode (.command w [])) =
      ([0x00, 0x07, 0x14, 0x24, 0x31, 0xFF].map fun op => .error (.reservedOpcode op)) ++
      List.replicate 6 (.error .mustBeZero) ++
      [.error .reservedCtl, .error .mustBeZero, .error .mustBeZero, .error .reservedCtl] := by decide

theorem test_decode_lcd_rejects :
    decode (.lcd 0b0_1_00000001) = .error .lcdRead ∧ decode (.lcd 0b1_1_00000000) = .error .lcdRead ∧
      decode (.lcd 0) = .error .noLcdInstruction := by decide

/-! Words, frames and bytes. -/

/-- R52 with data lines below 5: bits 5, 6, 7 at 0, 1, 2 (assumption log 21). -/
theorem test_bus_word_low_pins : busWord ⟨0, 1, 2⟩ 1 0xE1 = 0x0907 := by decide

/-- The map's table: 0x38, 0x69, 0xFF, and RS (2.1). -/
theorem test_bus_word :
    busWord ⟨5, 6, 7⟩ 0 0x38 = 0xC020 ∧ busWord ⟨5, 6, 7⟩ 1 0x69 = 0x4960 ∧ busWord ⟨5, 6, 7⟩ 1 0xFF = 0xF9E0 := by
  decide

/-- V1. -/
theorem test_frame_V1 :
    encodeFrame 0x1C 0xA5#8 = ([0x18, 0x10, 0x11, 0x19, 0x19, 0x11, 0x10, 0x18, 0x18, 0x10, 0x11, 0x19, 0x19, 0x11, 0x10,
      0x18, 0x18, 0x10, 0x10, 0x18, 0x18, 0x10, 0x11, 0x19, 0x19, 0x11, 0x10, 0x18, 0x18, 0x10, 0x11, 0x19, 0x19, 0x1D],
      0x1D) := by decide

/-- V5b. -/
theorem test_frame_V5b :
    encodeFrame 0x3D 0x01#8 = ([0x39, 0x31, 0x30, 0x38, 0x38, 0x30, 0x30, 0x38, 0x38, 0x30, 0x30, 0x38, 0x38, 0x30, 0x30,
      0x38, 0x38, 0x30, 0x30, 0x38, 0x38, 0x30, 0x30, 0x38, 0x38, 0x30, 0x30, 0x38, 0x38, 0x30, 0x31, 0x39, 0x39, 0x3D],
      0x3D) := by decide

/-- A chain and the byte applied to it. -/
def chainAfter (a : Byte) (sr : Word) (b : Byte) : Word × Word :=
  ((applyByte b { State.reset with adapter := a, sr := sr, q := 0x1234 }).sr,
    (applyByte b { State.reset with adapter := a, sr := sr, q := 0x1234 }).q)

/-- A1 to A6. -/
theorem test_apply_A1_to_A6 :
    chainAfter 0x10 0x0001 0x1D = (0x0003, 0x0001) ∧ chainAfter 0x14 0x8001 0x19 = (0x0003, 0x1234) ∧
    chainAfter 0x10 0x8001 0x09 = (0x0000, 0x1234) ∧ chainAfter 0x18 0x8001 0x19 = (0x8001, 0x1234) ∧
    chainAfter 0x18 0x8001 0x0C = (0x0000, 0x0000) ∧ chainAfter 0x1A 0x8001 0x1E = (0x8001, 0x8001) := by decide

/-! The states the tests start from. -/

/-- As program P1 leaves it, with an empty log. -/
def active : State :=
  { State.reset with session := .active, pins := 0x1C, adapter := 0x1C, sr := 0x6000, q := 0x6000 }

/-- As the first step of P1 leaves it, with an empty log. -/
def configured : State := { State.reset with session := .configured, pins := 0x1C, adapter := 0x1C }

/-- `active` with clear held, as B5 leaves it. -/
def cleared : State := { active with pins := 0x0C, adapter := 0x0C, sr := 0, q := 0 }

/-- `active` with the outputs off, as B6 leaves it. -/
def floating : State := { active with pins := 0x3C, adapter := 0x3C, sr := 0, q := 0, pulse := .dirty }

/-- The transport's next answers, then `ok`. -/
def State.answers (l : List Answer) (s : State) : State := { s with transport := ⟨l, .ok⟩ }

/-- The state an outcome leads to. -/
def nextOf : Host.Outcome State Fault Refusal → Option State
  | .next t => some t
  | .fault _ => none
  | .refused _ => none

theorem exists_next {o : Host.Outcome State Fault Refusal} {p : State → Bool} (h : (nextOf o).any p = true) :
    ∃ t, o = .next t ∧ p t = true := by
  cases o with
  | next t => exact ⟨t, rfl, h⟩
  | fault f => cases h
  | refused r => cases h

/-! Instructions. -/

set_option maxRecDepth 20000

/-- S1. -/
theorem test_shiftOut8_S1 :
    (nextOf (exec (.shiftOut8 0xA5) active)).map (fun t => (t.sr, t.q, t.pins, t.log)) =
      some (0x00A5, 0x00A5, 0x1D, [.tx 34 true]) := by decide

/-- S2. -/
theorem test_shiftOut8_S2 :
    (nextOf (exec (.shiftOut8 0xA5) cleared)).map (fun t => (t.sr, t.q)) = some (0, 0) := by decide

/-- S3. -/
theorem test_shiftOut16_S3 :
    (nextOf (exec (.shiftOut16 0x0600) active)).map (fun t => (t.q, t.faults, t.codes)) =
      some (0x0600, [.readContention], []) := by decide

/-- S5, its first operation: E rises while the data change. -/
theorem test_shiftOut16_S5 :
    (nextOf (exec (.shiftOut16 0x0400) active)).map (fun t => (t.q, t.pulse, t.log)) =
      some (0x0400, .dirty, [.tx 66 true]) := by decide

/-- V7. -/
theorem test_busWrite_V7 :
    (nextOf (exec (.busWrite 1 0x41) active)).map (fun t => (t.sr, t.q, t.pins, t.log)) =
      some (0x0940, 0x0940, 0x1C, [.tx 66 true, .tx 66 true, .transfer 1 0 0x41, .tx 66 true]) := by decide

/-- V12 with a transport that never answers in place of the failure: the same chain, and phase 1 stands in the log. -/
theorem test_busWrite_V12_stuck :
    (nextOf (exec (.busWrite 1 0x41) (State.answers [.ok, .never 43] active))).map
        (fun t => ((t.stuck, t.session), (t.adapter, t.sr, t.q), t.log)) =
      some ((true, .active), (0x10, 0x0035, 0x0940), [.tx 66 true]) := by decide

/-- V12. -/
theorem test_busWrite_V12 :
    (nextOf (exec (.busWrite 1 0x41) (State.answers [.ok, .fail 43 0x77 []] active))).map
        (fun t => ((t.session, t.adapter, t.sr), t.q, t.pulse, t.log)) =
      some ((.failed, 0x10, 0x0035), 0x0940, .idle, [.tx 66 true, .tx 66 false]) := by decide

/-- B5. -/
theorem test_srClear_B5 :
    (nextOf (exec (.srClear 0) active)).map (fun t => (t.pins, t.sr, t.q)) = some (0x0C, 0, 0) := by decide

/-- B4. -/
theorem test_srClear_B4 : (nextOf (exec (.srClear 1) cleared)).map (fun t => t.pins) = some 0x1C := by decide

/-- B6. -/
theorem test_srOe_B6 :
    (nextOf (exec (.srOe 1) active)).map (fun t => (t.pins, t.view, t.pulse)) = some (0x3C, none, .dirty) := by decide

/-- B7, with the draw n = 2. -/
theorem test_srOe_B7 :
    (nextOf (exec (.srOe 0) { floating with floats := ⟨[2], 0⟩ })).map (fun t => (t.pins, t.pulse, t.log)) =
      some (0x1C, .idle, [.anyTransfer, .anyTransfer, .tx 34 true]) := by decide

/-- B1. -/
theorem test_backlight_B1 :
    (nextOf (exec (.backlight 1) active)).map (fun t => (t.pins, t.sr, t.q, t.log)) =
      some (0xDC, 0, 0, [.tx 34 true]) := by decide

/-- B3. -/
theorem test_backlight_B3 :
    (nextOf (exec (.backlight 1) State.reset)).map (fun t => (t.pins, t.adapter)) = some (0xCC, 0xCC) := by decide

/-- B9. -/
theorem test_backlightFor_B9 :
    (nextOf (exec (.backlightFor 5) active)).map (fun t => (t.pins, t.log)) =
      some (0x1C, [.tx 34 true, .wait 5, .tx 34 true]) := by decide

/-- B10. -/
theorem test_backlightFor_B10 :
    (nextOf (exec (.backlightFor 5) (State.answers [.fail 10 0x77 [0x65]] active))).map
        (fun t => (t.session, t.adapter, t.codes, t.log)) =
      some (.failed, 0xD0, [.transmissionFailed [0x65]], [.tx 34 false]) := by decide

/-- B9 with its off-frame unanswered after one byte: the on-frame and the sleep stand, the silent frame is not logged
(R71, R111, R134). -/
theorem test_backlightFor_stuck :
    (nextOf (exec (.backlightFor 5) (State.answers [.ok, .never 1] active))).map
        (fun t => ((t.stuck, t.session, t.pins), (t.adapter, t.q), t.codes, t.log)) =
      some ((true, .active, 0x1C), (0x18, 0), [], [.tx 34 true, .wait 5]) := by decide

/-- P1, its first operation. -/
theorem test_configure_P1 :
    (nextOf (exec .configure State.reset)).map (fun t => (t.pins, t.q, t.pulse, t.session, t.log)) =
      some (0x1C, 0, .idle, .configured, [.tx 34 true, .tx 34 true, .tx 34 true]) := by decide

/-- P6, with the draw n = 1. -/
theorem test_configure_P6 :
    (nextOf (exec .configure (State.start Params.default 0x20 0xFFFF 0x0400 ⟨[], .ok⟩ ⟨[1], 0⟩))).map
        (fun t => (t.pins, t.sr, t.q, t.pulse, lcdEvents t.log)) =
      some (0x1C, 0, 0, .idle, [.anyTransfer, .anyTransfer]) := by decide

/-- M26. -/
theorem test_init_M26 :
    (nextOf (exec (.init 1) configured)).map (fun t => (t.session, lcdEvents t.log)) =
      some (.active, [.transfer 0 0 0x01, .transfer 0 0 0x38, .transfer 0 0 0x0C, .transfer 0 0 0x06]) := by decide

/-- M13. -/
theorem test_clearDisplay_M13 :
    (nextOf (exec .clearDisplay active)).map (fun t => lcdEvents t.log) = some [.transfer 0 0 0x01] := by decide

/-- M15, its second operation. -/
theorem test_writeText_M15 :
    (nextOf (exec (.writeText 1 [0x5A]) { active with regDisplay := 0x08 })).map
        (fun t => (t.regDisplay, lcdEvents t.log)) =
      some (0x0C, [.transfer 0 0 0x80, .transfer 1 0 0x5A, .transfer 0 0 0x0C]) := by decide

/-- M20. -/
theorem test_writeText_M20 :
    (nextOf (exec (.writeText 3 (List.replicate 17 0x42)) active)).map (fun t => (t.codes, t.log)) =
      some ([.badLine], []) := by decide

/-- M2. -/
theorem test_setEntryMode_M2 :
    (nextOf (exec (.setEntryMode .clear .keep) active)).map (fun t => (t.regEntry, lcdEvents t.log)) =
      some (0x04, [.transfer 0 0 0x04]) := by decide

/-- M6. -/
theorem test_setDisplay_M6 :
    (nextOf (exec (.setDisplay .set .set .set) active)).map (fun t => (t.regDisplay, lcdEvents t.log)) =
      some (0x0F, [.transfer 0 0 0x0F]) := by decide

/-- M8. -/
theorem test_setShift_M8 :
    (nextOf (exec (.setShift .keep .set) active)).map (fun t => (t.regShift, lcdEvents t.log)) =
      some (0x14, [.transfer 0 0 0x14]) := by decide

/-- M12. -/
theorem test_setFunction_M12 :
    (nextOf (exec (.setFunction .clear .keep .keep) active)).map (fun t => (t.regFunction, lcdEvents t.log)) =
      some (0x28, [.transfer 0 0 0x28]) := by decide

/-- M25, and X5. -/
theorem test_sessionEnd_M25_X5 :
    (nextOf (exec .sessionEnd active)).map (fun t => (t.session, t.log)) = some (.ended, []) ∧
    (nextOf (exec .sessionEnd { active with session := .failed })).map (fun t => t.session) = some .ended ∧
    (nextOf (exec .sessionEnd { active with session := .ended })).map (fun t => t.refused) =
      some (some .wrongState) := by decide

/-- S7, M21, M23 and X2: refused by the session's state. -/
theorem test_wrong_state :
    [exec (.shiftOut8 1) State.reset, exec (.init 0) active, exec (.writeText 1 [0x41]) configured,
      exec (.writeText 3 []) configured].map (fun o => (nextOf o).map fun t => (t.refused, t.log, t.codes)) =
      List.replicate 4 (some (some .wrongState, [], [])) := by decide

/-- X1: an illegal word is refused as such before the session's state is looked at. -/
theorem test_illegal_before_wrong_state :
    (nextOf (step (State.reset.withFetchWord 32 0x20000001))).map (fun t => t.refused) =
      some (some .illegalCommand) := by decide

/-- I16 of spec/93_implementation_defined.md, R139: the second open sets the mark and takes no other step. -/
theorem test_second_session_refused :
    (nextOf (step { active with pending := [.openAdapter] })).map (fun t => (t.refused, t.session, t.codes)) =
      some (some .secondSession, .active, []) := by decide

/-- X7, X8. -/
theorem test_sticky_and_concurrent :
    (nextOf (step { active with pending := [.operation (.command 0x10000000 []) true] })).map (fun t => t.refused) =
      some (some .concurrentIssue) ∧
    nextOf (step { active with faults := [.readContention] }) = none := by decide

/-- The bits of an LCD transfer word reach the LCD (R98 to R105): one word of each shape. -/
theorem test_lcd_words :
    busWritesOf active (.lcdEntryModeSet 1 0) = [(0, 0x06)] ∧ busWritesOf active (.lcdDisplayControl 1 0 1) = [(0, 0x0D)] ∧
    busWritesOf active (.lcdCursorDisplayShift 1 0 2) = [(0, 0x1A)] ∧
    busWritesOf active (.lcdFunctionSet 1 1 0 0) = [(0, 0x38)] ∧ busWritesOf active (.lcdSetDdramAddress 0x40) = [(0, 0xC0)] ∧
    busWritesOf active (.lcdReturnHome 1) = [(0, 0x03)] ∧ busWritesOf active (.lcdSetCgramAddress 0x21) = [(0, 0x61)] := by
  decide

theorem test_lcdWriteData :
    (nextOf (exec (.lcdWriteData 0x41) active)).map (fun t => lcdEvents t.log) = some [.transfer 1 0 0x41] := by decide

theorem test_lcdCursorDisplayShift :
    (nextOf (exec (.lcdCursorDisplayShift 1 0 2) active)).map (fun t => (t.regShift, lcdEvents t.log)) =
      some (0x10, [.transfer 0 0 0x1A]) := by decide

/-! For each statement with hypotheses, a state and operands that meet them together, each clause apart. -/

/-- The state with a request issued. -/
def issued (r : Request) (s : State) : State := issueFirst r s

theorem witness_DecodeInvertsEncode :
    (Instr.backlightFor 16777215).wellFormed = true ∧ (Instr.writeText 255 [0xFF]).wellFormed = true ∧
      (Instr.setFunction .set .clear .keep).wellFormed = true := by decide

theorem witness_EncodeInvertsDecode :
    decode (.lcd 0b0000010011) = .ok (.lcdCursorDisplayShift 0 0 3) ∧
    decode (.command 0x130000FF [0x41]) = .ok (.writeText 255 [0x41]) ∧
    decode (.command 0x10000000 [0x41]) = .ok .configure := by decide

theorem witness_DataPinMapIsReversible :
    DataHiPos.distinct ⟨5, 6, 7⟩ = true ∧ DataHiPos.distinct ⟨7, 0, 1⟩ = true := by decide

theorem witness_CtlFieldsAreBitSurgical : 0 < 8 ∧ 7 < 8 := by decide

theorem witness_DataPinMap_clauses :
    4 < 5 ∧ (10 < 11 ∧ 10 ≠ 8 ∧ 10 ≠ 5 ∧ 10 ≠ 6 ∧ 10 ≠ 7) ∧ (4 < 11 ∧ 4 ≠ 8 ∧ 4 ≠ 5 ∧ 4 ≠ 6 ∧ 4 ≠ 7) := by decide

theorem witness_FrameShape : 0 < 8 ∧ 15 < 16 := by decide

theorem witness_PhasesDifferInEnableOnly :
    (0x1C#8)[0] = false ∧ (0x1C#8)[2] = true ∧ (0x1C#8)[3] = true ∧ (busWord ⟨5, 6, 7⟩ 1 0xFF)[0] = false ∧
      (busWord ⟨5, 6, 7⟩ 1 0xFF)[10] = false := by decide

theorem witness_LatchLoadsOutputs :
    ({ active with adapter := 0x18 }.adapter[2] = false ∧ (0x1C#8)[2] = true) ∧
    active.adapter[2] = true ∧ (0x18#8)[2] = false := by decide

theorem witness_ClockShiftsStage :
    (0x0C#8)[4] = false ∧
    ((0x1C#8)[4] = true ∧ { active with adapter := 0x14 }.adapter[3] = false ∧ (0x1C#8)[3] = true) ∧
    ((0x1C#8)[4] = true ∧ active.adapter[3] = true) ∧ ((0x14#8)[4] = true ∧ (0x14#8)[3] = false) := by decide

theorem witness_AdapterTakesByte : (0x1C : Byte) &&& 0x1D = (0xFE : Byte) &&& 0x1D := by decide

theorem witness_OutputsWaitForLastByte : 33 ≤ 4 * 8 + 1 ∧ 65 ≤ 4 * 16 + 1 := by decide

theorem witness_ShiftOutEightLoadsAndLatches :
    (active.Live ∧ active.session ∈ admittedIn (.shiftOut8 0xA5) ∧ active.adapter = active.pins ∧
      active.transport.oks 1 = true ∧ active.Uncontended active.pins (active.sr.extractLsb' 0 8 ++ 0xA5#8)) ∧
    (cleared.Live ∧ cleared.session ∈ admittedIn (.shiftOut8 0xA5) ∧ cleared.adapter = cleared.pins ∧
      cleared.transport.oks 1 = true ∧ cleared.Uncontended cleared.pins 0) := by decide

theorem witness_ShiftOutSixteenLoadsAndLatches :
    (configured.Live ∧ configured.session ∈ admittedIn (.shiftOut16 0xFDFF) ∧ configured.adapter = configured.pins ∧
      configured.transport.oks 1 = true ∧ configured.Uncontended configured.pins 0xFDFF) ∧
    (cleared.Live ∧ cleared.session ∈ admittedIn (.shiftOut16 0xFFFF) ∧ cleared.adapter = cleared.pins ∧
      cleared.transport.oks 1 = true ∧ cleared.Uncontended cleared.pins 0) := by decide

theorem witness_ReadContentionStopsTheMachine :
    active.Live ∧ active.session ∈ admittedIn (.shiftOut16 0x0600) ∧ active.LcdReady ∧ active.transport.oks 1 = true ∧
      (0x0600 : Word)[10] = true ∧ (0x0600 : Word)[9] = true := by decide

/-- `active` under another text policy. -/
def State.withPolicy (x : TextPolicy) (s : State) : State := { s with params := { s.params with textPolicy := x } }

/-- A live state with ready inputs whose stage has bits 2 and 1 set. -/
def risky : State := { active with sr := 0x0006, q := 0x0006 }

/-- The premises of ContentionIsRecordedOnEveryWay but for those of its clauses, for instructions given with their first
frames. -/
abbrev CutFrom (s : State) (l : List (Instr × Byte × Word)) : Prop :=
  s.Live ∧ s.CacheMatches ∧ ∀ x ∈ l, s.session ∈ admittedIn x.1 ∧ firstFrame x.1 s = some x.2 ∧ x.2.1[5] = false

/-- An unclean start: driven outputs hold E and RW, and the one delivered byte is the faulting one. -/
def uncleanStart : State := State.start Params.default 0x00 0 0x0600 ⟨[.fail 1 0x77 []], .ok⟩ ⟨[], 0⟩

theorem witness_ContentionIsRecordedOnEveryWay_driven :
    CutFrom uncleanStart
      [(.configure, 0x00, 0), (.srClear 1, 0x10, 0), (.srOe 0, 0x00, 0), (.backlightFor 5, 0xC0, 0)] ∧
    contended uncleanStart.q = true ∧ uncleanStart.adapter[5] = false ∧
    uncleanStart.transport.head.delivers 1 = true := by decide

/-- A start over floating outputs that hold E and RW, with three float draws to come and two delivered bytes. -/
def floatingStart : State := State.start Params.default 0x20 0 0x0600 ⟨[.fail 2 0x77 []], .ok⟩ ⟨[3], 0⟩

theorem witness_ContentionIsRecordedOnEveryWay_floating :
    CutFrom floatingStart [(.configure, 0x00, 0), (.backlight 0, 0x00, 0)] ∧ contended floatingStart.q = true ∧
    floatingStart.adapter[5] = true ∧ floatingStart.transport.head.delivers 2 = true := by decide

theorem witness_ContentionIsRecordedOnEveryWay_srOe :
    CutFrom { floating with q := 0x0600 } [(.srOe 0, 0x1C, 0)] ∧ floating.adapter[5] = true ∧
    floating.transport.head.delivers 2 = true := by decide

/-- A raw word in a transmission that never answers and delivers all its bytes. -/
theorem witness_ContentionIsRecordedOnEveryWay_silent :
    let s := State.answers [.never 66] active
    CutFrom s [(.shiftOut16 0x0600, 0x1C, 0x0600)] ∧
      s.transport.head.delivers (firstFrameBytes (.shiftOut16 0x0600)) = true := by decide

/-- The last byte of a frame, over ready inputs and a stage with bits 2 and 1 set. -/
theorem witness_ContentionIsRecordedOnEveryWay_latched :
    CutFrom risky
      [(.shiftOut8 0xFF, 0x1C, 0x06FF), (.srClear 1, 0x1C, 0x0600), (.srOe 0, 0x1C, 0x0600),
        (.backlight 1, 0xDC, 0x0600), (.backlightFor 0, 0xDC, 0x0600)] ∧
    contended risky.q = false ∧ contended 0x0600 = true ∧ contended 0x06FF = true ∧
    risky.transport.head.delivers 66 = true := by decide

/-- A raw word whose transmission fails with all its bytes delivered, from E high. -/
theorem witness_ContentionIsRecordedOnEveryWay_failed :
    let s := State.answers [.fail 66 0x77 []] { active with q := 0x0400, pulse := .clean 0 }
    CutFrom s [(.shiftOut16 0x0600, 0x1C, 0x0600)] ∧ contended s.q = false ∧
      s.transport.head.delivers (firstFrameBytes (.shiftOut16 0x0600)) = true := by decide

/-- The same from E low, with more bytes drawn than the frame has. -/
theorem witness_ContentionIsRecordedOnEveryWay_overdrawn :
    let s := State.answers [.fail 67 0x77 []] active
    CutFrom s [(.shiftOut16 0x0600, 0x1C, 0x0600)] ∧ contended s.q = false ∧
      s.transport.head.delivers (firstFrameBytes (.shiftOut16 0x0600)) = true := by decide

/-- SR_CLEAR 1 and a failed 34-byte frame from a start whose outputs float. -/
theorem witness_ContentionIsRecordedOnEveryWay_start :
    let s := State.start Params.default 0x20 0x0006 0x0006 ⟨[.fail 34 0x77 []], .ok⟩ ⟨[3], 0⟩
    CutFrom s [(.srClear 1, 0x10, 0x0600)] ∧ contended s.q = false ∧ s.adapter[5] = true ∧
      s.transport.head.delivers (firstFrameBytes (.srClear 1)) = true := by decide

/-- Its premise on WRITE_TEXT, at both lines, at the limit and past it under another policy. -/
theorem witness_ContentionIsRecordedOnEveryWay_text :
    ((1 = 1 ∨ 1 = 2) ∧ ((List.replicate 16 0x41#8).length ≤ 16 ∨ active.params.textPolicy ≠ .reject)) ∧
    ((2 = 1 ∨ 2 = 2) ∧ ((List.replicate 17 0x41#8).length ≤ 16 ∨
      (State.withPolicy .truncate active).params.textPolicy ≠ .reject)) := by decide

theorem witness_ContentionHasNoOtherWay :
    (risky.CacheMatches ∧ ∃ t, exec (.backlight 1) risky = .next t ∧ (!t.faults.isEmpty) = true) ∧
    (let s := { floating with q := 0x0600 };
      s.CacheMatches ∧ ∃ t, exec (.srOe 0) s = .next t ∧ (!t.faults.isEmpty) = true) :=
  ⟨⟨by decide, exists_next (by decide)⟩, by decide, exists_next (by decide)⟩

theorem witness_CleanFallLatchesTransfer :
    eOf 0x0D40 = true ∧ eOf 0x0940 = false ∧ { active with pulse := .clean 0x0940 }.pulse = .clean 0x0940 ∧
      withoutE 0x0940 = 0x0940 := by decide

theorem witness_UncleanInputsAreUnknown :
    contended 0x0C00 = false ∧ contended 0x0800 = false ∧
    (eOf 0x6000 = false ∧ eOf 0x0C00 = true ∧ withoutE 0x6000 ≠ withoutE 0x0C00) ∧
    (eOf 0x0800 = false ∧ eOf 0x0C00 = true ∧ withoutE 0x0800 = withoutE 0x0C00) ∧
    (eOf 0x0400 = true ∧ eOf 0x0C00 = true ∧ withoutE 0x0400 ≠ withoutE 0x0C00) ∧
    (eOf 0x0C00 = true ∧ eOf 0x0800 = false ∧ floating.pulse ≠ .clean (withoutE 0x0800)) ∧
    (contended 0x0600 = true ∧ .readContention ∉ active.faults) ∧
    (contended 0xFFFF = true ∧ .readContention ∈ { active with faults := [.readContention] }.faults) := by decide

/-- A step that runs one frame. -/
theorem runs_a_frame : ∃ t, step (issued (.command 0x03000001 []) active) = .next t ∧ t.pending.isEmpty = true :=
  exists_next (by decide)

theorem witness_PulseAgreesAfterEveryStep :
    ∃ s t, s.PulseAgrees ∧ step s = .next t := by
  obtain ⟨t, h, -⟩ := runs_a_frame
  exact ⟨issued (.command 0x03000001 []) active, t, rfl, h⟩

theorem witness_BusWriteLatchesItsTransfer :
    (active.Live ∧ active.session ∈ admittedIn (.busWrite 1 0xFF) ∧ active.LcdReady ∧
      active.params.dataHi.distinct = true ∧ active.transport.oks 3 = true) ∧
    (configured.Live ∧ configured.session ∈ admittedIn (.busWrite 0 0x00) ∧ configured.LcdReady ∧
      configured.params.dataHi.distinct = true ∧ configured.transport.oks 3 = true) := by decide

theorem witness_LcdWordsLatchTheirOwnClass :
    encode (.lcdWriteData 0xFF) = .lcd 0b1011111111 ∧ active.Live ∧
      active.session ∈ admittedIn (.lcdWriteData 0xFF) ∧ active.LcdReady ∧ active.params.dataHi.distinct = true ∧
      active.transport.oks 3 = true := by decide

theorem witness_InitSendsItsCommands :
    configured.Live ∧ configured.session ∈ admittedIn (.init 1) ∧ configured.session ∈ admittedIn (.init 0) ∧
      configured.LcdReady ∧ configured.params.dataHi.distinct = true ∧ configured.transport.oks 12 = true ∧
      configured.transport.oks 9 = true := by decide

theorem witness_RegisterCommandsSendOneWrite :
    active.Live ∧ active.session = .active ∧ active.LcdReady ∧ active.params.dataHi.distinct = true ∧
      active.transport.oks 3 = true := by decide

theorem witness_WriteTextSendsItsBytes :
    (active.Live ∧ active.session = .active ∧ active.LcdReady ∧ active.params.dataHi.distinct = true) ∧
    ((List.replicate 16 0x42#8).length ≤ 16 ∧ active.transport.oks (3 * (16 + 2)) = true) ∧
    ((State.withPolicy .truncate active).params.textPolicy ≠ .reject ∧
      (State.withPolicy .truncate active).transport.oks (3 * (16 + 2)) = true) ∧
    ((State.withPolicy .unlimited active).params.textPolicy ≠ .reject ∧
      (State.withPolicy .unlimited active).transport.oks (3 * (17 + 2)) = true) := by decide

theorem witness_BusWritesCompleteInEveryPinState :
    (cleared.Live ∧ cleared.session ∈ admittedIn (.writeText 2 [0x41]) ∧ cleared.adapter = cleared.pins ∧
      busWritesOf cleared (.writeText 2 [0x41]) ≠ [] ∧ cleared.Uncontended cleared.pins 0 ∧
      cleared.transport.oks (3 * (busWritesOf cleared (.writeText 2 [0x41])).length) = true ∧
      cleared.pins[4] = false ∧ eOf cleared.q = false) ∧
    (floating.Live ∧ floating.session ∈ admittedIn .clearDisplay ∧ floating.adapter = floating.pins ∧
      busWritesOf floating .clearDisplay ≠ [] ∧ floating.Uncontended floating.pins 0 ∧
      floating.transport.oks (3 * (busWritesOf floating .clearDisplay).length) = true) := by decide

theorem witness_clearedPulseAgrees : cleared.PulseAgrees := rfl

theorem witness_SrClearDrivesClear :
    (State.reset.Live ∧ State.reset.session ∈ admittedIn (.srClear 0) ∧ State.reset.Synced ∧
      State.reset.transport.oks 1 = true ∧ State.reset.Uncontended 0x00 0) ∧
    (active.Live ∧ active.session ∈ admittedIn (.srClear 1) ∧ active.Synced ∧ active.transport.oks 1 = true ∧
      active.Uncontended 0x1C (active.sr <<< 8)) := by decide

theorem witness_SrOeDrivesOutputEnable :
    (active.Live ∧ active.session ∈ admittedIn (.srOe 1) ∧ active.Synced ∧ active.transport.oks 1 = true ∧
      active.Uncontended 0x3C (active.sr <<< 8)) ∧
    (cleared.Live ∧ cleared.session ∈ admittedIn (.srOe 0) ∧ cleared.Synced ∧ cleared.transport.oks 1 = true ∧
      cleared.Uncontended 0x0C 0) := by decide

theorem witness_BacklightDrivesBothBits :
    (active.Live ∧ active.session ∈ admittedIn (.backlight 1) ∧ active.Synced ∧ active.transport.oks 1 = true ∧
      active.Uncontended 0xDC (active.sr <<< 8)) ∧
    (State.reset.Live ∧ State.reset.session ∈ admittedIn (.backlight 0) ∧ State.reset.Synced ∧
      State.reset.transport.oks 1 = true ∧ State.reset.Uncontended 0x00 0) := by decide

theorem witness_TimedBacklightWaitsAndSwitchesOff :
    16777215 ≠ 0 ∧ active.Live ∧ active.session ∈ admittedIn (.backlightFor 16777215) ∧ active.Synced ∧
      active.transport.oks 2 = true ∧ active.Uncontended active.pins (active.sr <<< 8) := by decide

theorem witness_SideFrameCausesNoTransfer :
    active.Live ∧ active.session ∈ admittedIn (.backlight 1) ∧ active.LcdReady ∧ active.sr[2] = false ∧
      active.transport.oks 1 = true := by decide

theorem witness_PinsStaySoundAfterEveryStep : ∃ s t, s.PinsSound ∧ step s = .next t := by
  obtain ⟨t, h, -⟩ := runs_a_frame
  exact ⟨_, t, by decide, h⟩

theorem witness_ConfigureBringsUpTheChain :
    (State.reset.Live ∧ State.reset.session = .uninitialized ∧ State.reset.Synced ∧
      State.reset.transport.oks 3 = true ∧ State.reset.Uncontended State.reset.pins 0) ∧
    (State.reset.adapter[5] = false ∧ State.reset.pins[5] = false ∧ eOf State.reset.q = false ∧
      State.reset.pulse = .idle) := by decide

theorem witness_resetPulseAgrees : State.reset.PulseAgrees := rfl

theorem witness_SessionEndLeavesThePins :
    active.Live ∧ active.session ≠ .ended ∧ { active with session := .failed }.Live ∧
      { active with session := .failed }.session ≠ .ended := by decide

/-- Each transition of R114 is taken by some instruction. -/
theorem witness_SessionFollowsItsTransitions :
    (∃ t, exec .configure State.reset = .next t ∧ (t.session == .configured) = true) ∧
    (∃ t, exec (.init 0) configured = .next t ∧ (t.session == .active) = true) ∧
    (∃ t, exec .sessionEnd active = .next t ∧ (t.session == .ended) = true) ∧
    (∃ t, exec (.srClear 0) (State.answers [.fail 3 0x77 []] active) = .next t ∧ (t.session == .failed) = true) :=
  ⟨exists_next (by decide), exists_next (by decide), exists_next (by decide), exists_next (by decide)⟩

theorem witness_BadLineChangesNothing :
    active.Live ∧ active.session = .active ∧ (0 ≠ 1 ∧ 0 ≠ 2) ∧ (3 ≠ 1 ∧ 3 ≠ 2) ∧ (255 ≠ 1 ∧ 255 ≠ 2) := by decide

theorem witness_TextTooLongChangesNothing :
    active.Live ∧ active.session = .active ∧ 16 < (List.replicate 17 0x41#8).length ∧
      active.params.textPolicy = .reject ∧ (State.withPolicy .truncate active).Live ∧
      (State.withPolicy .truncate active).session = .active ∧
      (State.withPolicy .truncate active).params.textPolicy ≠ .reject := by decide

theorem witness_TextTooLong_truncate :
    ∃ t, exec (.writeText 2 []) (State.withPolicy .truncate active) = .next t ∧ (t.codes == [.ok]) = true :=
  exists_next (by decide)

theorem witness_FailureEndsTheOperation :
    ∃ t, exec (.busWrite 0 0x01) (State.answers [.ok, .fail 66 0x77 [0x65]] active) = .next t ∧
      (active.session != .failed && t.session == .failed) = true :=
  exists_next (by decide)

theorem witness_FirstTransmissionFails :
    (State.answers [.fail 0 0x77 [0x65]] active).Live ∧
    (State.answers [.fail 0 0x77 [0x65]] active).session ∈ admittedIn (.writeText 2 (List.replicate 16 0x42)) ∧
    (State.answers [.fail 0 0x77 [0x65]] active).transport.head = .fail 0 0x77 [0x65] ∧
    (2 = 1 ∨ 2 = 2) ∧ (List.replicate 16 0x42#8).length ≤ 16 := by decide

theorem witness_EnablePhaseFails :
    ∀ m ∈ [0, 65, 66, 67],
      let s := State.answers [.ok, .fail m 0x77 [0x65]] active
      s.Live ∧ s.session ∈ admittedIn (.busWrite 1 0x41) ∧ s.LcdReady ∧ s.transport.head = .ok ∧
        s.transport.tail.head = .fail m 0x77 [0x65] := by decide

theorem witness_SilentTransportStopsTheCore :
    (let s := State.answers [.never 0] active;
      s.Live ∧ s.session ∈ admittedIn (.setEntryMode .clear .keep) ∧
        firstFrame (.setEntryMode .clear .keep) s = some (0x1C, 0x2000) ∧ s.transport.head = .never 0) ∧
    (let s := State.answers [.never 34] active;
      s.Live ∧ s.session ∈ admittedIn (.backlight 1) ∧ firstFrame (.backlight 1) s = some (0xDC, 0) ∧
        s.transport.head = .never 34 ∧ s.CacheMatches ∧ firstFrameBytes (.backlight 1) ≤ 34 ∧
        33 < firstFrameBytes (.backlight 1)) := by decide

/-- Its last clause: a stuck state with no fault. -/
theorem witness_SilentTransportStopsTheCore_stuck :
    ∃ t, exec (.backlight 1) (State.answers [.never 33] active) = .next t ∧
      (t.stuck && t.faults.isEmpty && t.q == 0x6000) = true := exists_next (by decide)

theorem witness_SilentPhaseKeepsTheFramesBefore :
    ∀ m ∈ [65, 66],
      (let s := State.answers [.ok, .never m] active;
        s.Live ∧ s.session ∈ admittedIn (.busWrite 1 0x41) ∧ s.LcdReady ∧ s.params.dataHi.distinct = true ∧
          s.transport.oks 1 = true ∧ (s.transport.skip 1).head = .never m) ∧
      (let s := State.answers [.ok, .ok, .never m] active;
        s.Live ∧ s.transport.oks 2 = true ∧ (s.transport.skip 2).head = .never m) := by decide

theorem witness_SilentTransmissionLeavesWhatAFailedOneDoes :
    active.session ≠ .failed ∧
    ∃ t, exec (.busWrite 1 0x41) { active with transport := Draws.oksThen 1 (.fail 43 0x77 [0x65]) ⟨[], .ok⟩ } =
      .next t ∧ (t.session == .failed) = true :=
  ⟨by decide, exists_next (by decide)⟩

theorem witness_AdmissionTableDecides :
    State.reset.Live ∧ State.reset.session ∉ admittedIn .clearDisplay ∧ active.Live ∧
      active.session ∈ admittedIn (.srClear 0) := by decide

theorem witness_AdmissionTable_admitted :
    ∃ t, exec (.srClear 0) active = .next t ∧ (t.pins == 0x0C) = true := exists_next (by decide)

theorem witness_StickyMarksEndTheRun :
    { active with faults := [.readContention] }.faults = [.readContention] ∧
    ({ active with refused := some .wrongState }.faults = [] ∧
      { active with refused := some .wrongState }.refused = some .wrongState) ∧
    (active.setStuck.faults = [] ∧ active.setStuck.refused = none ∧ active.setStuck.stuck = true) := by decide

theorem witness_StepRunsTheIssuedInstruction :
    active.Live ∧ active.pending = [] ∧ (issued (.command 0x13000001 [0x41]) active).Live ∧
    (issued (.command 0x13000001 [0x41]) active).pending = [.operation (.command 0x13000001 [0x41]) false] ∧
    decode (.command 0x13000001 [0x41]) = .ok (.writeText 1 [0x41]) := by decide

theorem witness_BadIssuesAreRefused :
    (issued (.command 0x20000001 []) active).Live ∧
    (issued (.command 0x20000001 []) active).pending = [.operation (.command 0x20000001 []) false] ∧
    decode (.command 0x20000001 []) = .error .reservedCtl ∧
    { active with pending := [.operation (.command 0x12000000 []) true] }.Live ∧
    { active with pending := [.operation (.command 0x12000000 []) true] }.pending =
      [.operation (.command 0x12000000 []) true] := by decide

theorem witness_BadIssues_no_instruction : ∀ i, decode (.command 0x20000001 []) ≠ .ok i := by
  have h : decode (.command 0x20000001 []) = .error .reservedCtl := by decide
  intro i k
  rw [h] at k
  cases k

theorem witness_StepOnlyAddsToTheRecord : ∃ s t, step s = .next t := by
  obtain ⟨t, h, -⟩ := runs_a_frame
  exact ⟨_, t, h⟩

theorem witness_CacheMatchesAfterEveryStep : ∃ s t, s.CacheMatches ∧ step s = .next t := by
  obtain ⟨t, h, -⟩ := runs_a_frame
  exact ⟨_, t, by decide, h⟩

theorem witness_RegistersKeepFixedBits : ∃ s t, s.RegistersFixed ∧ step s = .next t := by
  obtain ⟨t, h, -⟩ := runs_a_frame
  exact ⟨_, t, by decide, h⟩

theorem witness_InvariantsHoldAtStart : Params.default.wellFormed = true := by decide

/-- The first operation of a session whose transport delivers one byte and fails; SR_OE 1 among them. -/
theorem witness_PinsStartAtZero :
    State.reset.session ∈ admittedIn (.srOe 1) ∧ State.reset.session ∈ admittedIn .configure ∧
    Instr.srOe 1 ≠ .sessionEnd ∧ Instr.configure ≠ .sessionEnd ∧
    (Draws.head ⟨[.fail 1 0x77 []], .ok⟩ : Answer) = .fail 1 0x77 [] := by decide

theorem witness_PinsStart_session_given :
    ∃ u, openSession true Params.default { active with session := .ended } = .session u := ⟨_, rfl⟩

theorem witness_NewSessionStartsOverTheChain :
    active.Live ∧ active.session ≠ .ended ∧ ¬ { active with refused := some .wrongState }.Live ∧
      ¬ { active with faults := [.readContention] }.Live ∧ ¬ active.setStuck.Live := by decide

theorem witness_SecondSessionIsRefused :
    (let s := { active with pending := [.openAdapter] };
      s.Live ∧ s.pending = [.openAdapter] ∧ s.session ≠ .ended) ∧
    (let s := { active with pending := [.openAdapter], session := .ended };
      s.Live ∧ s.pending = [.openAdapter] ∧ s.session = .ended) := by decide

theorem witness_BringUpLogsExactlyItsTransfers :
    Params.default.wellFormed = true ∧ CleanStart 0xDF 0xFBFF ∧ Draws.oks ⟨[], .ok⟩ 12 = true ∧
      Draws.oks ⟨[], .ok⟩ 15 = true := by decide

/-- `active` with the backlight lit in PINS and half lit on the adapter. -/
def lit : State := { active with pins := 0xDC, adapter := 0x9C }

theorem witness_BacklightDoesNotReachTheLcd :
    active.AlikeButBacklight lit ∧
    (issued (.command 0x03000001 []) active).AlikeButBacklight (issued (.command 0x03000001 []) lit) ∧
    { active with faults := [.readContention] }.AlikeButBacklight { lit with faults := [.readContention] } ∧
    { active with refused := some .wrongState }.AlikeButBacklight { lit with refused := some .wrongState } := by decide

theorem witness_Backlight_next :
    (∃ t, exec (.backlight 1) active = .next t ∧ (t.pins == 0xDC) = true) ∧
    ∃ t, step (issued (.command 0x03000001 []) active) = .next t ∧ t.pending.isEmpty = true :=
  ⟨exists_next (by decide), runs_a_frame⟩

theorem witness_Backlight_stops :
    step { active with faults := [.readContention] } = .fault (.sticky .readContention) ∧
    step { active with refused := some .wrongState } = .refused (.sticky .wrongState) ∧
    step active.setStuck = .fault .transportNeverAnswers := ⟨rfl, rfl, rfl⟩

end Sys2Proof.Tests
end

section
/-! The length of a serial frame (spec/40_shift_loader.md R68) and what a byte's bits reach (R75 to R79). -/

namespace Sys2Proof.Machine

/-- R68: byte 0, four bytes for each bit and the latch byte. -/
theorem encodeFrame_length {w : Nat} (p : Byte) (v : BitVec w) : (encodeFrame p v).1.length = 4 * w + 2 := by
  simp [encodeFrame, clockBits_length]

/-- Settles O7: the length for every width, and its value at the widths 8 and 16. -/
theorem frameLength : Obligations.FrameLength :=
  ⟨fun _ => encodeFrame_length, encodeFrame_length, encodeFrame_length⟩

/-- The mask 0x1D selects SER, RCLK, SRCLK and CLR_N: bytes that agree under it agree on these four pins. -/
theorem chainPins_eq_of_and_eq {b b' : Byte} (h : b &&& 0x1D = b' &&& 0x1D) :
    b[0] = b'[0] ∧ b[2] = b'[2] ∧ b[3] = b'[3] ∧ b[4] = b'[4] := by
  have hbit (i : Nat) (hi : i < 8) : (b[i] && (0x1D : Byte)[i]) = (b'[i] && (0x1D : Byte)[i]) := by
    rw [← BitVec.getElem_and, ← BitVec.getElem_and, h]
  refine ⟨?_, ?_, ?_, ?_⟩
  · simpa using hbit 0 (by decide)
  · simpa using hbit 2 (by decide)
  · simpa using hbit 3 (by decide)
  · simpa using hbit 4 (by decide)

/-- R75: the clear looks at CLR_N only. -/
theorem clearStage_congr {b b' : Byte} (h4 : b[4] = b'[4]) (sr : Word) : clearStage b sr = clearStage b' sr := by
  simp only [clearStage, h4]

/-- R75, R76: the shift stage looks at SER, SRCLK and CLR_N only. -/
theorem nextSr_congr {b b' : Byte} (h0 : b[0] = b'[0]) (h3 : b[3] = b'[3]) (h4 : b[4] = b'[4]) (a : Byte) (sr : Word) :
    nextSr a b sr = nextSr a b' sr := by
  simp only [nextSr, h0, h3, h4, clearStage_congr h4]

/-- R75, R77: the storage stage looks at RCLK and CLR_N only. -/
theorem nextQ_congr {b b' : Byte} (h2 : b[2] = b'[2]) (h4 : b[4] = b'[4]) (a : Byte) (sr q : Word) :
    nextQ a b sr q = nextQ a b' sr q := by
  simp only [nextQ, h2, clearStage_congr h4]

/-- R25, R79: the view after a byte is that of its own levels over the new outputs. -/
theorem applyByte_view (b : Byte) (s : State) : (applyByte b s).view = viewOf b (applyByte b s).q := by
  rw [State.view, applyByte_adapter]

/-- Settles O13: SR and Q after a byte are functions of the pins 0, 2, 3 and 4 alone. -/
theorem adapterTakesByte : Obligations.AdapterTakesByte := by
  intro b b' s
  refine ⟨applyByte_adapter b s, fun hmask => ?_, applyByte_view b s⟩
  obtain ⟨h0, h2, h3, h4⟩ := chainPins_eq_of_and_eq hmask
  rw [applyByte_sr, applyByte_sr, applyByte_q, applyByte_q]
  exact ⟨nextSr_congr h0 h3 h4 s.adapter s.sr, nextQ_congr h2 h4 s.adapter s.sr s.q⟩

end Sys2Proof.Machine
end

section
/-! The LCD's input pins over a clean pulse (spec/41_lcd_write_sequencer.md R92). -/

namespace Sys2Proof.Machine

/-- Settles O18: the rule for E falling over a clean pulse, whose view is what `y` holds without E. -/
theorem cleanFallLatchesTransfer : Obligations.CleanFallLatchesTransfer := by
  intro a y x s ha hy hp hx
  subst hx
  exact lcdStep_fall a y s ha hy hp

end Sys2Proof.Machine
end

section
/-! The operand check of WRITE_TEXT (spec/60_exceptions.md R135). -/

namespace Sys2Proof.Machine

/-- R115, R125: where the table admits it, WRITE_TEXT is its checked text. -/
theorem exec_writeText_admitted (line : Nat) (text : List Byte) {s : State} (hl : s.Live) (ha : s.session = .active) :
    exec (.writeText line text) s = (checkedText line text s).outcome := by
  have hrow : admits .lcdCommand s.session = true := by rw [ha]; rfl
  exact operate_admitted hl hrow

/-- R135: the line is checked before the length and before any transmission. -/
theorem checkedText_of_badLine {line : Nat} (h1 : line ≠ 1) (h2 : line ≠ 2) (text : List Byte) (s : State) :
    checkedText line text s = raiseError .badLine s :=
  if_pos ⟨h1, h2⟩

/-- Settles O36: the line check is the first thing an admitted WRITE_TEXT does, and the error it raises ends the
operation with the code alone. -/
theorem badLineChangesNothing : Obligations.BadLineChangesNothing := by
  intro line text s hl ha h1 h2
  rw [exec_writeText_admitted line text hl ha, checkedText_of_badLine h1 h2]
  rfl

end Sys2Proof.Machine
end

section
/-! Decoding and encoding are inverse to each other (spec/30_encoding.md R54 to R61). -/

namespace Sys2Proof

/-- R57: a command word whose fields are those of its encoding decodes to the instruction. -/
theorem decodeCommand_encode (i : Instr) (hi : i.wellFormed = true) (cw : BitVec 32) (text : List Byte)
    (h : encode i = .command cw text) : decodeCommand cw text = .ok i := by
  cases i <;> cases h
  case shiftOut8 v => simp [decodeCommand, needZero, @extract_high 24 8, @extract_low 24 8]
  case shiftOut16 v => simp [decodeCommand, needZero, @extract_high 16 16, @extract_low 16 16]
  case busWrite rs b =>
    simp [decodeCommand, needZero, @extract_high 24 8, @extract_low 24 8, @extract_high 23 1, @extract_low 23 1]
  case srClear level => simp [decodeCommand, needZero, @extract_high 31 1, @extract_low 31 1]
  case srOe level => simp [decodeCommand, needZero, @extract_high 31 1, @extract_low 31 1]
  case backlight on => simp [decodeCommand, needZero, @extract_high 31 1, @extract_low 31 1]
  case backlightFor seconds =>
    have hs : seconds % 16777216 = seconds := Nat.mod_eq_of_lt (by simpa [Instr.wellFormed] using hi)
    simp [decodeCommand, @extract_high 8 24, @extract_low 8 24, hs]
  case configure => rfl
  case init withEntry => simp [decodeCommand, needZero, @extract_high 31 1, @extract_low 31 1]
  case clearDisplay => rfl
  case writeText line =>
    have hl : line % 256 = line := Nat.mod_eq_of_lt (by simpa [Instr.wellFormed] using hi)
    simp [decodeCommand, needZero, @extract_high 24 8, @extract_low 24 8, hl]
  case setEntryMode id s => cases id <;> cases s <;> rfl
  case setDisplay d c b => cases d <;> cases c <;> cases b <;> rfl
  case setShift sc rl => cases sc <;> cases rl <;> rfl
  case setFunction dl n f => cases dl <;> cases n <;> cases f <;> rfl
  case sessionEnd => rfl

/-- R55: the same of an LCD transfer word, whose class is its highest data bit. -/
theorem decodeLcd_encode (i : Instr) (w : BitVec 10) (h : encode i = .lcd w) : decodeLcd w = .ok i := by
  cases i <;> cases h
  case lcdClearDisplay => rfl
  case lcdEntryModeSet id s => revert id s; decide
  case lcdDisplayControl d c b => revert d c b; decide
  case lcdCursorDisplayShift sc rl low => revert sc rl low; decide
  case lcdFunctionSet dl n f low => revert dl n f low; decide
  case lcdSetDdramAddress a => revert a; decide
  case lcdWriteData d => revert d; decide
  case lcdReturnHome low => revert low; decide
  case lcdSetCgramAddress a => revert a; decide

/-- Settles O1: by the two kinds of word. -/
theorem decodeInvertsEncode : Obligations.DecodeInvertsEncode := by
  intro i hi
  match h : encode i with
  | .command cw text => exact decodeCommand_encode i hi cw text h
  | .lcd w => exact decodeLcd_encode i w h

theorem bit_eq_zero {x : Bit} (h : x ≠ 1) : x = 0 := by
  revert x; decide

/-- R55: a transfer word that has a class is the encoding of its instruction; a check of the 1024 transfer words. -/
theorem encode_of_decodeLcd_all :
    ∀ w : BitVec 10, (match decodeLcd w with
      | .ok i => i.wellFormed && encode i == .lcd w
      | .error _ => true) = true := by
  decide

theorem encode_of_decodeLcd {w : BitVec 10} {i : Instr} (h : decodeLcd w = .ok i) :
    i.wellFormed = true ∧ encode i = .lcd w := by
  have key := encode_of_decodeLcd_all w
  rw [h] at key
  simpa using key

/-- A command word is its OP beside its other 24 bits. -/
theorem join_op_rest (cw : BitVec 32) : cw.extractLsb' 24 8 ++ cw.extractLsb' 0 24 = cw := by
  rw [extract_join cw 0 8 24, extract_all]

/-- A command word is its OP, 23 bits and a one-bit operand. -/
theorem join_op_flag (cw : BitVec 32) : cw.extractLsb' 24 8 ++ cw.extractLsb' 1 23 ++ cw.extractLsb' 0 1 = cw := by
  rw [extract_join cw 1 8 23, extract_join cw 0 31 1, extract_all]

/-- What a command word says of the instruction it decodes to: that is well formed, and its encoding is the word, with
the text where it takes one. -/
def EncodedAs (i : Instr) (cw : BitVec 32) (text : List Byte) : Prop :=
  i.wellFormed = true ∧ ∃ kept, encode i = .command cw kept ∧
    (kept = text ∨ (kept = [] ∧ ∀ line t, i ≠ .writeText line t))

theorem EncodedAs.of_fields {i : Instr} {cw w : BitVec 32} (text : List Byte) (hi : i.wellFormed = true)
    (ht : ∀ line t, i ≠ .writeText line t) (he : encode i = .command w []) (hw : w = cw) : EncodedAs i cw text :=
  ⟨hi, [], hw ▸ he, .inr ⟨rfl, ht⟩⟩

/-- R57, R61: a command word that decodes has no bit outside the fields of its encoding. -/
theorem encodedAs_of_decodeCommand {cw : BitVec 32} {text : List Byte} {i : Instr}
    (h : decodeCommand cw text = .ok i) : EncodedAs i cw text := by
  unfold decodeCommand at h
  dsimp only at h
  by_cases h01 : cw.extractLsb' 24 8 = 0x01
  · rw [if_pos h01] at h
    obtain ⟨z17, h⟩ := needZero_ok.mp h
    by_cases h16 : cw.extractLsb' 16 1 = 1
    · rw [if_pos h16] at h
      cases h
      have fields : cw.extractLsb' 24 8 ++ cw.extractLsb' 17 7 ++ cw.extractLsb' 16 1 ++ cw.extractLsb' 0 16 = cw := by
        rw [extract_join cw 17 8 7, extract_join cw 16 15 1, extract_join cw 0 16 16, extract_all]
      rw [h01, z17, h16] at fields
      exact .of_fields text rfl (by simp) rfl fields
    · rw [if_neg h16] at h
      obtain ⟨z8, h⟩ := needZero_ok.mp h
      cases h
      have fields : cw.extractLsb' 24 8 ++ cw.extractLsb' 17 7 ++ cw.extractLsb' 16 1 ++ cw.extractLsb' 8 8 ++
          cw.extractLsb' 0 8 = cw := by
        rw [extract_join cw 17 8 7, extract_join cw 16 15 1, extract_join cw 8 16 8, extract_join cw 0 24 8,
          extract_all]
      rw [h01, z17, bit_eq_zero h16, z8] at fields
      exact .of_fields text rfl (by simp) rfl fields
  rw [if_neg h01] at h
  by_cases h02 : cw.extractLsb' 24 8 = 0x02
  · rw [if_pos h02] at h
    obtain ⟨z9, h⟩ := needZero_ok.mp h
    cases h
    have fields : cw.extractLsb' 24 8 ++ cw.extractLsb' 9 15 ++ cw.extractLsb' 8 1 ++ cw.extractLsb' 0 8 = cw := by
      rw [extract_join cw 9 8 15, extract_join cw 8 23 1, extract_join cw 0 24 8, extract_all]
    rw [h02, z9] at fields
    exact .of_fields text rfl (by simp) rfl fields
  rw [if_neg h02] at h
  by_cases h03 : cw.extractLsb' 24 8 = 0x03
  · rw [if_pos h03] at h
    obtain ⟨z1, h⟩ := needZero_ok.mp h
    cases h
    have fields := join_op_flag cw
    rw [h03, z1] at fields
    exact .of_fields text rfl (by simp) rfl fields
  rw [if_neg h03] at h
  by_cases h04 : cw.extractLsb' 24 8 = 0x04
  · rw [if_pos h04] at h
    obtain ⟨z1, h⟩ := needZero_ok.mp h
    cases h
    have fields := join_op_flag cw
    rw [h04, z1] at fields
    exact .of_fields text rfl (by simp) rfl fields
  rw [if_neg h04] at h
  by_cases h05 : cw.extractLsb' 24 8 = 0x05
  · rw [if_pos h05] at h
    obtain ⟨z1, h⟩ := needZero_ok.mp h
    cases h
    have fields := join_op_flag cw
    rw [h05, z1] at fields
    exact .of_fields text rfl (by simp) rfl fields
  rw [if_neg h05] at h
  by_cases h06 : cw.extractLsb' 24 8 = 0x06
  · rw [if_pos h06] at h
    cases h
    have fields := join_op_rest cw
    rw [h06] at fields
    exact .of_fields text (by simpa [Instr.wellFormed] using (cw.extractLsb' 0 24).isLt) (by simp)
      (by rw [encode, BitVec.ofNat_toNat, BitVec.setWidth_eq]; rfl) fields
  rw [if_neg h06] at h
  by_cases h10 : cw.extractLsb' 24 8 = 0x10
  · rw [if_pos h10] at h
    obtain ⟨z0, h⟩ := needZero_ok.mp h
    cases h
    have fields := join_op_rest cw
    rw [h10, z0] at fields
    exact .of_fields text rfl (by simp) rfl fields
  rw [if_neg h10] at h
  by_cases h11 : cw.extractLsb' 24 8 = 0x11
  · rw [if_pos h11] at h
    obtain ⟨z1, h⟩ := needZero_ok.mp h
    cases h
    have fields := join_op_flag cw
    rw [h11, z1] at fields
    exact .of_fields text rfl (by simp) rfl fields
  rw [if_neg h11] at h
  by_cases h12 : cw.extractLsb' 24 8 = 0x12
  · rw [if_pos h12] at h
    obtain ⟨z0, h⟩ := needZero_ok.mp h
    cases h
    have fields := join_op_rest cw
    rw [h12, z0] at fields
    exact .of_fields text rfl (by simp) rfl fields
  rw [if_neg h12] at h
  by_cases h13 : cw.extractLsb' 24 8 = 0x13
  · rw [if_pos h13] at h
    obtain ⟨z8, h⟩ := needZero_ok.mp h
    cases h
    have fields : cw.extractLsb' 24 8 ++ cw.extractLsb' 8 16 ++ cw.extractLsb' 0 8 = cw := by
      rw [extract_join cw 8 8 16, extract_join cw 0 24 8, extract_all]
    rw [h13, z8] at fields
    exact ⟨by simpa [Instr.wellFormed] using (cw.extractLsb' 0 8).isLt, text,
      by rw [encode, BitVec.ofNat_toNat, BitVec.setWidth_eq]; exact congrArg (Request.command · text) fields, .inl rfl⟩
  rw [if_neg h13] at h
  by_cases h20 : cw.extractLsb' 24 8 = 0x20
  · rw [if_pos h20] at h
    obtain ⟨z4, h⟩ := needZero_ok.mp h
    obtain ⟨c2, e2, h⟩ := needCtl_ok.mp h
    obtain ⟨c0, e0, h⟩ := needCtl_ok.mp h
    cases h
    have fields : cw.extractLsb' 24 8 ++ cw.extractLsb' 4 20 ++ cw.extractLsb' 2 2 ++
        cw.extractLsb' 0 2 = cw := by
      rw [extract_join cw 4 8 20, extract_join cw 2 28 2, extract_join cw 0 30 2, extract_all]
    rw [h20, z4, e2, e0] at fields
    exact .of_fields text rfl (by simp) rfl fields
  rw [if_neg h20] at h
  by_cases h21 : cw.extractLsb' 24 8 = 0x21
  · rw [if_pos h21] at h
    obtain ⟨z6, h⟩ := needZero_ok.mp h
    obtain ⟨c4, e4, h⟩ := needCtl_ok.mp h
    obtain ⟨c2, e2, h⟩ := needCtl_ok.mp h
    obtain ⟨c0, e0, h⟩ := needCtl_ok.mp h
    cases h
    have fields : cw.extractLsb' 24 8 ++ cw.extractLsb' 6 18 ++ cw.extractLsb' 4 2 ++ cw.extractLsb' 2 2 ++
        cw.extractLsb' 0 2 = cw := by
      rw [extract_join cw 6 8 18, extract_join cw 4 26 2, extract_join cw 2 28 2, extract_join cw 0 30 2, extract_all]
    rw [h21, z6, e4, e2, e0] at fields
    exact .of_fields text rfl (by simp) rfl fields
  rw [if_neg h21] at h
  by_cases h22 : cw.extractLsb' 24 8 = 0x22
  · rw [if_pos h22] at h
    obtain ⟨z8, h⟩ := needZero_ok.mp h
    obtain ⟨z0, h⟩ := needZero_ok.mp h
    obtain ⟨c6, e6, h⟩ := needCtl_ok.mp h
    obtain ⟨c4, e4, h⟩ := needCtl_ok.mp h
    cases h
    have fields : cw.extractLsb' 24 8 ++ cw.extractLsb' 8 16 ++ cw.extractLsb' 6 2 ++ cw.extractLsb' 4 2 ++
        cw.extractLsb' 0 4 = cw := by
      rw [extract_join cw 8 8 16, extract_join cw 6 24 2, extract_join cw 4 26 2, extract_join cw 0 28 4, extract_all]
    rw [h22, z8, e6, e4, z0] at fields
    exact .of_fields text rfl (by simp) rfl fields
  rw [if_neg h22] at h
  by_cases h23 : cw.extractLsb' 24 8 = 0x23
  · rw [if_pos h23] at h
    obtain ⟨z10, h⟩ := needZero_ok.mp h
    obtain ⟨z0, h⟩ := needZero_ok.mp h
    obtain ⟨c8, e8, h⟩ := needCtl_ok.mp h
    obtain ⟨c6, e6, h⟩ := needCtl_ok.mp h
    obtain ⟨c4, e4, h⟩ := needCtl_ok.mp h
    cases h
    have fields : cw.extractLsb' 24 8 ++ cw.extractLsb' 10 14 ++ cw.extractLsb' 8 2 ++ cw.extractLsb' 6 2 ++
        cw.extractLsb' 4 2 ++ cw.extractLsb' 0 4 = cw := by
      rw [extract_join cw 10 8 14, extract_join cw 8 22 2, extract_join cw 6 24 2, extract_join cw 4 26 2,
        extract_join cw 0 28 4, extract_all]
    rw [h23, z10, e8, e6, e4, z0] at fields
    exact .of_fields text rfl (by simp) rfl fields
  rw [if_neg h23] at h
  by_cases h30 : cw.extractLsb' 24 8 = 0x30
  · rw [if_pos h30] at h
    obtain ⟨z0, h⟩ := needZero_ok.mp h
    cases h
    have fields := join_op_rest cw
    rw [h30, z0] at fields
    exact .of_fields text rfl (by simp) rfl fields
  rw [if_neg h30] at h
  cases h

/-- Settles O2: by the two kinds of word. -/
theorem encodeInvertsDecode : Obligations.EncodeInvertsDecode :=
  ⟨fun _ _ h => encode_of_decodeLcd h, fun _ _ _ h => encodedAs_of_decodeCommand h⟩

end Sys2Proof
end

section
/-! Which command words are instructions (spec/30_encoding.md R57, R61; spec/opcode_table.json). -/

namespace Sys2Proof

/-- A field of a word under a mask that keeps all of the field. -/
theorem field_of_masked {cw mask fixed : BitVec 32} (h : cw &&& mask = fixed) (lo n : Nat)
    (hm : mask.extractLsb' lo n = BitVec.allOnes n) : cw.extractLsb' lo n = fixed.extractLsb' lo n := by
  have key := congrArg (BitVec.extractLsb' lo n) h
  rwa [BitVec.extractLsb'_and, hm, BitVec.and_allOnes] at key

/-- R58: the ctl value of two bits other than 01. -/
theorem ctl_of_legal {x : BitVec 2} (h : x ≠ 0b01) : ∃ c : Ctl, x = c.bits := by
  have hx : x = 0b00 ∨ x = 0b10 ∨ x = 0b11 := by revert x; decide
  rcases hx with rfl | rfl | rfl
  · exact ⟨.keep, rfl⟩
  · exact ⟨.clear, rfl⟩
  · exact ⟨.set, rfl⟩

theorem needCtl_of_legal {cw : BitVec 32} {lo : Nat} {k : Ctl → Except Reject Instr}
    (h : cw.extractLsb' lo 2 ≠ 0b01) (hk : ∀ c, ∃ i, k c = .ok i) : ∃ i, needCtl cw lo k = .ok i := by
  obtain ⟨c, hc⟩ := ctl_of_legal h
  obtain ⟨i, hi⟩ := hk c
  exact ⟨i, needCtl_ok.mpr ⟨c, hc, hi⟩⟩

/-- R57: where the fixed bits of a row stand in a word and its ctl fields are legal, the decoder finds an instruction.
-/
theorem exists_decode_of_row (cw : BitVec 32) (text : List Byte) (row : Machine.CommandRow)
    (hr : row ∈ Machine.commandRows) (h : cw &&& row.mask = row.fixed)
    (hc : ∀ lo ∈ row.ctls, cw.extractLsb' lo 2 ≠ 0b01) :
    ∃ i, decodeCommand cw text = .ok i := by
  simp only [Machine.commandRows, List.mem_cons, List.not_mem_nil, or_false] at hr
  rcases hr with rfl | rfl | rfl | rfl | rfl | rfl | rfl | rfl | rfl | rfl | rfl | rfl | rfl | rfl | rfl | rfl
  all_goals dsimp only at h hc
  · simp [decodeCommand, needZero, field_of_masked h 24 8 (by decide), field_of_masked h 17 7 (by decide),
      field_of_masked h 16 1 (by decide), field_of_masked h 8 8 (by decide)]
  · simp [decodeCommand, needZero, field_of_masked h 24 8 (by decide), field_of_masked h 17 7 (by decide),
      field_of_masked h 16 1 (by decide)]
  · simp [decodeCommand, needZero, field_of_masked h 24 8 (by decide), field_of_masked h 9 15 (by decide)]
  · simp [decodeCommand, needZero, field_of_masked h 24 8 (by decide), field_of_masked h 1 23 (by decide)]
  · simp [decodeCommand, needZero, field_of_masked h 24 8 (by decide), field_of_masked h 1 23 (by decide)]
  · simp [decodeCommand, needZero, field_of_masked h 24 8 (by decide), field_of_masked h 1 23 (by decide)]
  · simp [decodeCommand, field_of_masked h 24 8 (by decide)]
  · simp [decodeCommand, needZero, field_of_masked h 24 8 (by decide), field_of_masked h 0 24 (by decide)]
  · simp [decodeCommand, needZero, field_of_masked h 24 8 (by decide), field_of_masked h 1 23 (by decide)]
  · simp [decodeCommand, needZero, field_of_masked h 24 8 (by decide), field_of_masked h 0 24 (by decide)]
  · simp [decodeCommand, needZero, field_of_masked h 24 8 (by decide), field_of_masked h 8 16 (by decide)]
  · have key := needCtl_of_legal (hc 2 (by simp)) fun id =>
      needCtl_of_legal (hc 0 (by simp)) fun s =>
      ⟨Instr.setEntryMode id s, rfl⟩
    simpa [decodeCommand, needZero, field_of_masked h 24 8 (by decide), field_of_masked h 4 20 (by decide)] using key
  · have key := needCtl_of_legal (hc 4 (by simp)) fun d =>
      needCtl_of_legal (hc 2 (by simp)) fun c =>
      needCtl_of_legal (hc 0 (by simp)) fun b =>
      ⟨Instr.setDisplay d c b, rfl⟩
    simpa [decodeCommand, needZero, field_of_masked h 24 8 (by decide), field_of_masked h 6 18 (by decide)] using key
  · have key := needCtl_of_legal (hc 6 (by simp)) fun sc =>
      needCtl_of_legal (hc 4 (by simp)) fun rl =>
      ⟨Instr.setShift sc rl, rfl⟩
    simpa [decodeCommand, needZero, field_of_masked h 24 8 (by decide), field_of_masked h 8 16 (by decide),
      field_of_masked h 0 4 (by decide)] using key
  · have key := needCtl_of_legal (hc 8 (by simp)) fun dl =>
      needCtl_of_legal (hc 6 (by simp)) fun n =>
      needCtl_of_legal (hc 4 (by simp)) fun f =>
      ⟨Instr.setFunction dl n f, rfl⟩
    simpa [decodeCommand, needZero, field_of_masked h 24 8 (by decide), field_of_masked h 10 14 (by decide),
      field_of_masked h 0 4 (by decide)] using key
  · simp [decodeCommand, needZero, field_of_masked h 24 8 (by decide), field_of_masked h 0 24 (by decide)]

/-- The row of an instruction without ctl fields, by the fixed bits its encoding shows. -/
theorem exists_row_of_shown {cw mask fixed : BitVec 32} {text : List Byte}
    (hm : (⟨mask, fixed, []⟩ : Machine.CommandRow) ∈ Machine.commandRows)
    (h : (Laws.RowBits.cw mask fixed).shownBy (.command cw text)) :
    ∃ row ∈ Machine.commandRows, cw &&& row.mask = row.fixed ∧ ∀ lo ∈ row.ctls, cw.extractLsb' lo 2 ≠ 0b01 :=
  ⟨_, hm, h, by simp⟩

/-- R57, R61: a word that decodes shows the fixed bits of its instruction's row, and each ctl field is one of R58. -/
theorem exists_row_of_decode {cw : BitVec 32} {text : List Byte} {i : Instr} (h : decodeCommand cw text = .ok i) :
    ∃ row ∈ Machine.commandRows, cw &&& row.mask = row.fixed ∧ ∀ lo ∈ row.ctls, cw.extractLsb' lo 2 ≠ 0b01 := by
  obtain ⟨hw, kept, he, -⟩ := encodedAs_of_decodeCommand h
  cases i
  case shiftOut8 v =>
    exact exists_row_of_shown (by simp [Machine.commandRows]) (he ▸ Laws.RowPattern.shiftOut8 v hw)
  case shiftOut16 v =>
    exact exists_row_of_shown (by simp [Machine.commandRows]) (he ▸ Laws.RowPattern.shiftOut16 v hw)
  case busWrite rs b =>
    exact exists_row_of_shown (by simp [Machine.commandRows]) (he ▸ Laws.RowPattern.busWrite rs b hw)
  case srClear level =>
    exact exists_row_of_shown (by simp [Machine.commandRows]) (he ▸ Laws.RowPattern.srClear level hw)
  case srOe level =>
    exact exists_row_of_shown (by simp [Machine.commandRows]) (he ▸ Laws.RowPattern.srOe level hw)
  case backlight on =>
    exact exists_row_of_shown (by simp [Machine.commandRows]) (he ▸ Laws.RowPattern.backlight on hw)
  case backlightFor seconds =>
    exact exists_row_of_shown (by simp [Machine.commandRows]) (he ▸ Laws.RowPattern.backlightFor seconds hw)
  case configure =>
    exact exists_row_of_shown (by simp [Machine.commandRows]) (he ▸ Laws.RowPattern.configure hw)
  case init withEntry =>
    exact exists_row_of_shown (by simp [Machine.commandRows]) (he ▸ Laws.RowPattern.init withEntry hw)
  case clearDisplay =>
    exact exists_row_of_shown (by simp [Machine.commandRows]) (he ▸ Laws.RowPattern.clearDisplay hw)
  case writeText line t =>
    exact exists_row_of_shown (by simp [Machine.commandRows]) (he ▸ Laws.RowPattern.writeText line t hw)
  case sessionEnd =>
    exact exists_row_of_shown (by simp [Machine.commandRows]) (he ▸ Laws.RowPattern.sessionEnd hw)
  case setEntryMode id s =>
    refine ⟨⟨0xFFFFFFF0, 0x20000000, [2, 0]⟩, by simp [Machine.commandRows], ?_, ?_⟩
    · have shown := Laws.RowPattern.setEntryMode id s hw
      rw [he] at shown
      exact shown
    · cases he
      cases id <;> cases s <;> decide
  case setDisplay d c b =>
    refine ⟨⟨0xFFFFFFC0, 0x21000000, [4, 2, 0]⟩, by simp [Machine.commandRows], ?_, ?_⟩
    · have shown := Laws.RowPattern.setDisplay d c b hw
      rw [he] at shown
      exact shown
    · cases he
      cases d <;> cases c <;> cases b <;> decide
  case setShift sc rl =>
    refine ⟨⟨0xFFFFFF0F, 0x22000000, [6, 4]⟩, by simp [Machine.commandRows], ?_, ?_⟩
    · have shown := Laws.RowPattern.setShift sc rl hw
      rw [he] at shown
      exact shown
    · cases he
      cases sc <;> cases rl <;> decide
  case setFunction dl n f =>
    refine ⟨⟨0xFFFFFC0F, 0x23000000, [8, 6, 4]⟩, by simp [Machine.commandRows], ?_, ?_⟩
    · have shown := Laws.RowPattern.setFunction dl n f hw
      rw [he] at shown
      exact shown
    · cases he
      cases dl <;> cases n <;> cases f <;> decide
  all_goals cases he

/-- Settles O3: a row's fixed bits give the fields the decoder reads, and an instruction's encoding shows its row. -/
theorem legalWordsAreTableRows : Obligations.LegalWordsAreTableRows := by
  intro cw text
  constructor
  · rintro ⟨i, h⟩
    exact exists_row_of_decode h
  · rintro ⟨row, hr, h, hc⟩
    exact exists_decode_of_row cw text row hr h hc

/-- Settles O4: each word read by the decoder. -/
theorem specWordsDecode : Obligations.SpecWordsDecode := by
  refine ⟨?_, ?_, ?_, ?_, ?_, ?_, ?_, ?_, ?_, ?_, ?_⟩ <;> decide

end Sys2Proof
end

section
/-! An operation as a list of parts: what it changes before its frames, and the frames (spec/40_shift_loader.md section
3, spec/41_lcd_write_sequencer.md R85, spec/42_side_channels.md, spec/43_lcd_command_state_machine.md). The parts are
tied to the model by `exec_eq_operate`. -/

namespace Sys2Proof.Machine

/-- What an operation does between its transmissions: a pin in PINS (R108 to R110), the host's sleep (R112), the flags
of a cached register (R121 to R124, R127). -/
inductive Setup where
  | clear (level : Bit)
  | outputs (level : Bit)
  | light (on : Bit)
  | wait (seconds : Nat)
  | entry (id d : Ctl)
  | display (d c b : Ctl)
  | shift (sc rl : Ctl)
  | function (dl n f : Ctl)

def Setup.apply (s : State) : Setup → State
  | .clear level => s.setPins (withClrN s.pins level)
  | .outputs level => s.setPins (withOeN s.pins level)
  | .light on => s.setPins (withBacklight s.pins on)
  | .wait seconds => s.logEvents [.wait seconds]
  | .entry id d => s.setEntry (entryWith s.regEntry id d)
  | .display d c b => s.setDisplay (displayWith s.regDisplay d c b)
  | .shift sc rl => s.setShift (shiftWith s.regShift sc rl)
  | .function dl n f => s.setFunction (functionWith s.regFunction dl n f)

/-- One part of an operation: a setup, or the transmission of a word. -/
inductive Part where
  | setup (x : Setup)
  | send {w : Nat} (v : BitVec (w + 1))

def Part.run (s : State) : Part → Run
  | .setup x => .go (x.apply s)
  | .send v => sendFrame v s

/-- The parts of an operation, one after the other. -/
def runParts : List Part → State → Run
  | [], s => .go s
  | p :: ps, s => (p.run s).andThen (runParts ps)

@[simp] theorem runParts_setup (x : Setup) (ps : List Part) (s : State) :
    runParts (.setup x :: ps) s = runParts ps (x.apply s) := rfl

theorem runParts_send {w : Nat} (v : BitVec (w + 1)) (ps : List Part) (s : State) :
    runParts (.send v :: ps) s = (sendFrame v s).andThen (runParts ps) := rfl

theorem andThen_assoc (r : Run) (k l : State → Run) :
    (r.andThen k).andThen l = r.andThen fun s => (k s).andThen l := by
  cases r <;> rfl

theorem andThen_go_self (r : Run) : r.andThen .go = r := by cases r <;> rfl

theorem runParts_append (ps qs : List Part) (s : State) :
    runParts (ps ++ qs) s = (runParts ps s).andThen (runParts qs) := by
  induction ps generalizing s with
  | nil => rfl
  | cons p ps ih =>
    rw [List.cons_append, runParts, runParts, andThen_assoc, funext ih]

/-- The three phases of one bus write (R85, R86). -/
def writeParts (dp : DataHiPos) (x : Bit × Byte) : List Part :=
  [.send (busWord dp x.1 x.2), .send (busWord dp x.1 x.2 ||| eMask), .send (busWord dp x.1 x.2 &&& ~~~eMask)]

/-- The bus writes of a list of (RS, byte) pairs. -/
def writesParts (dp : DataHiPos) (ws : List (Bit × Byte)) : List Part := ws.flatMap (writeParts dp)

/-- One side-channel frame with the pin it drives (R106). -/
def sideParts (x : Setup) : List Part := [.setup x, .send sideWord]

/-- R125, R126: the characters WRITE_TEXT sends of an admitted text. -/
def sentText (p : TextPolicy) (text : List Byte) : List Byte := if p = .truncate then text.take textLimit else text

/-- R120: the flags a SET_ operation writes into its register before the bus write. -/
def registerParts : Instr → List Part
  | .setEntryMode id d => [.setup (.entry id d)]
  | .setDisplay d c b => [.setup (.display d c b)]
  | .setShift sc rl => [.setup (.shift sc rl)]
  | .setFunction dl n f => [.setup (.function dl n f)]
  | _ => []

/-- The parts of an instruction that passes the caller-input checks. -/
def partsOf (s : State) : Instr → List Part
  | .shiftOut8 v => [.send v]
  | .shiftOut16 v => [.send v]
  | .srClear level => sideParts (.clear level)
  | .srOe level => sideParts (.outputs level)
  | .backlight on => sideParts (.light on)
  | .backlightFor seconds =>
    sideParts (.light 1) ++ if seconds = 0 then [] else .setup (.wait seconds) :: sideParts (.light 0)
  | .configure => sideParts (.clear 0) ++ sideParts (.outputs 0) ++ sideParts (.clear 1)
  | .sessionEnd => []
  | .writeText line text =>
    writesParts s.params.dataHi ((0, if line = 1 then line1AddrCmd else line2AddrCmd) ::
        (sentText s.params.textPolicy text).map fun ch => (1, ch)) ++
      .setup (.display .set .keep .keep) :: writesParts s.params.dataHi [(0, displayOn s.regDisplay)]
  | i => registerParts i ++ writesParts s.params.dataHi (busWritesOf s i)

/-- R135, R136: the caller-input error an instruction raises before its first part. -/
def callerError (s : State) : Instr → Option ReturnCode
  | .writeText line text =>
    if line ≠ 1 ∧ line ≠ 2 then some .badLine
    else if textLimit < text.length ∧ s.params.textPolicy = .reject then some .textTooLong else none
  | _ => none

/-- R114: the session an instruction leaves when all its parts went through. -/
def sessionAfter : Instr → Session → Session
  | .configure, _ => .configured
  | .init _, _ => .active
  | .sessionEnd, _ => .ended
  | _, x => x

/-- R115: an instruction's row of the admission table. -/
def rowOf : Instr → AdmissionRow
  | .srClear _ => .side
  | .srOe _ => .side
  | .backlight _ => .side
  | .backlightFor _ => .side
  | .configure => .configure
  | .init _ => .init
  | .clearDisplay => .lcdCommand
  | .writeText _ _ => .lcdCommand
  | .setEntryMode _ _ => .lcdCommand
  | .setDisplay _ _ _ => .lcdCommand
  | .setShift _ _ => .lcdCommand
  | .setFunction _ _ _ => .lcdCommand
  | .sessionEnd => .sessionEnd
  | _ => .bus

/-- What an admitted instruction does. -/
def bodyOf (i : Instr) (s : State) : Run :=
  match callerError s i with
  | some c => raiseError c s
  | none => (runParts (partsOf s i) s).andThen fun t => .go (t.setSession (sessionAfter i t.session))

theorem admits_rowOf (i : Instr) (x : Session) : admits (rowOf i) x = true ↔ x ∈ admittedIn i := by
  cases i <;> cases x <;> simp [admits, rowOf, admittedIn]

/-- What a transmission that goes through leaves as it was. -/
structure KeepsSettings (s t : State) : Prop where
  params : t.params = s.params
  regEntry : t.regEntry = s.regEntry
  regDisplay : t.regDisplay = s.regDisplay
  regShift : t.regShift = s.regShift
  regFunction : t.regFunction = s.regFunction

theorem KeepsSettings.refl (s : State) : KeepsSettings s s := ⟨rfl, rfl, rfl, rfl, rfl⟩

theorem KeepsSettings.trans {s t u : State} (h : KeepsSettings s t) (k : KeepsSettings t u) : KeepsSettings s u :=
  ⟨k.params.trans h.params, k.regEntry.trans h.regEntry, k.regDisplay.trans h.regDisplay,
    k.regShift.trans h.regShift, k.regFunction.trans h.regFunction⟩


/-! What the parts can do, said once. -/

/-- The log has grown by events of the LCD side alone. -/
def LcdLog (s t : State) : Prop := ∃ es, lcdEvents es = es ∧ t.log = s.log ++ es

theorem LcdLog.refl (s : State) : LcdLog s s := ⟨[], rfl, (List.append_nil _).symm⟩

theorem LcdLog.trans {s t u : State} (h : LcdLog s t) (k : LcdLog t u) : LcdLog s u := by
  obtain ⟨es, he, h⟩ := h
  obtain ⟨fs, hf, k⟩ := k
  refine ⟨es ++ fs, ?_, by rw [k, h, List.append_assoc]⟩
  rw [lcdEvents, List.filter_append]
  exact congrArg₂ _ he hf

theorem latched_lcdEvents (dp : DataHiPos) (x : Pulse) (c : Word) : lcdEvents [latched dp x c] = [latched dp x c] := by
  unfold latched
  split
  · split <;> rfl
  · rfl
  · rfl

theorem lcdEdge_log (a c : Word) (s : State) : LcdLog s (lcdEdge a c s) := by
  unfold lcdEdge
  split
  · exact LcdLog.refl s
  · split
    · exact LcdLog.refl s
    · split
      · exact ⟨_, latched_lcdEvents _ _ _, rfl⟩
      · exact LcdLog.refl s

/-- R90: the LCD side logs transfers only. -/
theorem lcdStep_log (v0 v1 : Option Word) (s : State) : LcdLog s (lcdStep v0 v1 s) := by
  match v0, v1 with
  | none, none => exact LcdLog.refl s
  | some _, none => exact LcdLog.refl s
  | none, some c =>
    refine ⟨List.replicate s.floats.head .anyTransfer, ?_, rfl⟩
    exact List.filter_eq_self.mpr fun e he => by rw [List.eq_of_mem_replicate he]
  | some a, some c =>
    unfold lcdStep
    dsimp only
    split
    · exact lcdEdge_log a c (s.addFault .readContention)
    · exact lcdEdge_log a c s

theorem applyByte_log (b : Byte) (s : State) : LcdLog s (applyByte b s) :=
  lcdStep_log s.view _ (s.setChain b (nextSr s.adapter b s.sr) (nextQ s.adapter b s.sr s.q))

theorem deliver_log (bs : List Byte) (s : State) : LcdLog s (deliver bs s) :=
  deliver_keeps (I := LcdLog s) (fun b t h => h.trans (applyByte_log b t)) bs s (LcdLog.refl s)

/-- What an operation can change while it goes on; no failed transmission is among its events. -/
def Progress (s t : State) : Prop :=
  ∃ es, (∀ k, Event.tx k false ∉ es) ∧
    t = { s with
      pins := t.pins, regEntry := t.regEntry, regDisplay := t.regDisplay, regShift := t.regShift,
      regFunction := t.regFunction, adapter := t.adapter, sr := t.sr, q := t.q, pulse := t.pulse,
      log := s.log ++ es, faults := t.faults, transport := t.transport, floats := t.floats }

theorem Progress.refl (s : State) : Progress s s := ⟨[], by simp, by simp⟩

theorem Progress.trans {s t u : State} (h : Progress s t) (k : Progress t u) : Progress s u := by
  obtain ⟨es, he, h⟩ := h
  obtain ⟨fs, hf, k⟩ := k
  refine ⟨es ++ fs, fun n hn => (List.mem_append.mp hn).elim (he n) (hf n), ?_⟩
  rw [k, h]
  simp

/-- How an operation ends early: by a fault, unanswered, or by a failed transmission (R133, R134, R141). -/
def Halted (s t : State) : Prop :=
  (Progress s t ∧ t.faults ≠ []) ∨
  ∃ u, Progress s u ∧ u.faults = [] ∧
    (t = u.setStuck ∨
      ∃ n p x, t = (((u.logEvents [.tx n false]).setPins p).setSession .failed).returnCode (.transmissionFailed x))

theorem Halted.of_progress {s t u : State} (h : Progress s t) (k : Halted t u) : Halted s u := by
  rcases k with ⟨k, hf⟩ | ⟨v, k, hf, hu⟩
  · exact .inl ⟨h.trans k, hf⟩
  · exact .inr ⟨v, h.trans k, hf, hu⟩

theorem deliver_progress (bs : List Byte) (d : Draws Answer) (s : State) :
    Progress s (deliver bs (s.setTransport d)) := by
  obtain ⟨es, he, hl⟩ := deliver_log bs (s.setTransport d)
  obtain ⟨fs, hd⟩ := deliver_downstream bs (s.setTransport d)
  have hfs : fs = es := List.append_cancel_left ((congrArg State.log hd).symm.trans hl)
  subst hfs
  refine ⟨fs, fun k hk => ?_, by rw [hd]; rfl⟩
  rw [← he] at hk
  simp [lcdEvents] at hk

theorem deliver_settings (bs : List Byte) (d : Draws Answer) (s : State) :
    KeepsSettings s (deliver bs (s.setTransport d)) := by
  obtain ⟨fs, hd⟩ := deliver_downstream bs (s.setTransport d)
  rw [hd]
  exact ⟨rfl, rfl, rfl, rfl, rfl⟩

theorem Progress.logOk {s t : State} (h : Progress s t) (n : Nat) (p : Byte) :
    Progress s ((t.logEvents [.tx n true]).setPins p) := by
  refine h.trans ⟨[.tx n true], by simp, rfl⟩

/-- R71: everything a transmission can change. -/
theorem sendFrame_meets {w : Nat} (v : BitVec w) (s : State) :
    (sendFrame v s).Meets (fun t => KeepsSettings s t ∧ Progress s t ∧ t.faults = []) (Halted s) := by
  rcases sendFrame_cases v s with ⟨m, -, hf, e⟩ | ⟨bs, hf, e⟩ | ⟨-, hf, e⟩ | ⟨m, p, x, -, hf, e⟩ <;> rw [e]
  · exact .inr ⟨_, deliver_progress _ _ s, hf, .inl rfl⟩
  · exact .inl ⟨deliver_progress _ _ s, hf⟩
  · have hs := deliver_settings (encodeFrame s.pins v).1 s.transport.tail s
    exact ⟨⟨hs.params, hs.regEntry, hs.regDisplay, hs.regShift, hs.regFunction⟩,
      (deliver_progress _ _ s).logOk _ _, hf⟩
  · exact .inr ⟨_, deliver_progress _ _ s, hf, .inr ⟨_, _, _, rfl⟩⟩

theorem Setup.apply_progress (x : Setup) (s : State) : Progress s (x.apply s) := by
  cases x with
  | wait n => exact ⟨[.wait n], by simp, rfl⟩
  | _ => exact ⟨[], by simp, by rw [List.append_nil]; rfl⟩

theorem Setup.apply_faults (x : Setup) (s : State) : (x.apply s).faults = s.faults := by cases x <;> rfl

/-- What each part keeps, the parts of an operation keep. -/
theorem runParts_keeps {G E : State → Prop} (hset : ∀ x s, G s → G (Setup.apply s x))
    (hsend : ∀ {w : Nat} (v : BitVec (w + 1)) s, G s → (sendFrame v s).Meets G E) (ps : List Part) (s : State)
    (hs : G s) : (runParts ps s).Meets G E := by
  induction ps generalizing s with
  | nil => exact hs
  | cons p ps ih =>
    cases p with
    | setup x => exact ih _ (hset x s hs)
    | send v => exact (hsend v s hs).andThen ih

/-- Everything the parts of an operation can change. -/
theorem runParts_meets (ps : List Part) (s : State) (hf : s.faults = []) :
    (runParts ps s).Meets (fun t => Progress s t ∧ t.faults = []) (Halted s) := by
  refine runParts_keeps (fun x t h => ⟨h.1.trans (x.apply_progress t), (x.apply_faults t).trans h.2⟩)
    (fun v t h => (sendFrame_meets v t).mono (fun u hu => ⟨h.1.trans hu.2.1, hu.2.2⟩) fun u hu => hu.of_progress h.1)
    ps s ⟨Progress.refl s, hf⟩

/-- Transmissions alone change no register and no parameter. -/
theorem runSends_settings (ps : List Part) (hp : ∀ x, Part.setup x ∉ ps) (s : State) :
    (runParts ps s).Meets (KeepsSettings s) fun _ => True := by
  induction ps generalizing s with
  | nil => exact KeepsSettings.refl s
  | cons p ps ih =>
    cases p with
    | setup x => exact absurd List.mem_cons_self (hp x)
    | send v =>
      refine ((sendFrame_meets v s).mono (fun t h => h.1) fun _ _ => trivial).andThen fun t ht => ?_
      exact (ih (fun x hx => hp x (List.mem_cons_of_mem _ hx)) t).mono (fun u hu => ht.trans hu) fun _ _ => trivial

end Sys2Proof.Machine
end

section
/-! Every instruction is its parts: the tie between the lists of parts and the model. -/

namespace Sys2Proof.Machine

theorem no_setup_in_writesParts (dp : DataHiPos) (ws : List (Bit × Byte)) (x : Setup) :
    Part.setup x ∉ writesParts dp ws := by
  simp [writesParts, writeParts]

theorem runParts_single_send {w : Nat} (v : BitVec (w + 1)) (s : State) : runParts [.send v] s = sendFrame v s :=
  andThen_go_self _

theorem runParts_writeParts (dp : DataHiPos) (rs : Bit) (b : Byte) (s : State) (h : s.params.dataHi = dp) :
    runParts (writeParts dp (rs, b)) s = busCycle rs b s := by
  subst h
  have phases : ∀ (u v : Word) (t : State),
      runParts [.send u, .send v] t = (sendFrame u t).andThen (sendFrame v) := fun u v t => by
    rw [runParts_send, funext (runParts_single_send v)]
  rw [writeParts, runParts_send, funext (phases _ _), busCycle, andThen_assoc]

theorem writesParts_cons (dp : DataHiPos) (x : Bit × Byte) (ws : List (Bit × Byte)) :
    writesParts dp (x :: ws) = writeParts dp x ++ writesParts dp ws := rfl

theorem writesParts_append (dp : DataHiPos) (ws vs : List (Bit × Byte)) :
    writesParts dp (ws ++ vs) = writesParts dp ws ++ writesParts dp vs := List.flatMap_append

theorem writesParts_single (dp : DataHiPos) (x : Bit × Byte) : writesParts dp [x] = writeParts dp x := by
  simp [writesParts]

/-- Two continuations that agree wherever a run goes on give the same operation. -/
theorem andThen_congr {G E : State → Prop} {r : Run} {k l : State → Run} (hr : r.Meets G E)
    (h : ∀ s, G s → k s = l s) : r.andThen k = r.andThen l := by
  cases r with
  | go s => exact h s hr
  | ended s => rfl

/-- After bus writes the operation goes on with the registers and the parameters it began with. -/
theorem andThen_writes_congr {dp : DataHiPos} {ws : List (Bit × Byte)} {s : State} {k l : State → Run}
    (h : ∀ t, KeepsSettings s t → k t = l t) :
    (runParts (writesParts dp ws) s).andThen k = (runParts (writesParts dp ws) s).andThen l :=
  andThen_congr (runSends_settings _ (no_setup_in_writesParts dp ws) s) h

theorem runParts_sideParts (x : Setup) (s : State) : runParts (sideParts x) s = sideFrame (x.apply s) :=
  runParts_single_send sideWord _

theorem runParts_write (dp : DataHiPos) (rs : Bit) (b : Byte) (s : State) (h : s.params.dataHi = dp) :
    runParts (writesParts dp [(rs, b)]) s = busCycle rs b s := by
  rw [writesParts_single, runParts_writeParts dp rs b s h]

/-- A bus write and then others. -/
theorem busCycle_andThen (dp : DataHiPos) (rs : Bit) (b : Byte) (ws : List (Bit × Byte)) (s : State)
    (h : s.params.dataHi = dp) :
    (busCycle rs b s).andThen (runParts (writesParts dp ws)) = runParts (writesParts dp ((rs, b) :: ws)) s := by
  rw [writesParts_cons, runParts_append, runParts_writeParts dp rs b s h]

/-- Bus writes and then another. -/
theorem andThen_busCycle (dp : DataHiPos) (rs : Bit) (b : State → Byte) (ws : List (Bit × Byte)) (s : State)
    (h : s.params.dataHi = dp) (hb : ∀ t, KeepsSettings s t → b t = b s) :
    ((runParts (writesParts dp ws) s).andThen fun t => busCycle rs (b t) t) =
      runParts (writesParts dp (ws ++ [(rs, b s)])) s := by
  rw [writesParts_append, runParts_append]
  refine andThen_writes_congr fun t ht => ?_
  rw [hb t ht, runParts_write dp rs (b s) t (ht.params ▸ h)]

/-- R118: INIT's writes, with the registers as they stand when it begins. -/
theorem initSession_eq (e : Bit) (s : State) :
    initSession e s = (runParts (writesParts s.params.dataHi (busWritesOf s (.init e))) s).andThen fun t =>
      .go (t.setSession .active) := by
  rw [initSession, ← runParts_write s.params.dataHi 0 clearCmd s rfl,
    andThen_busCycle _ 0 State.regFunction _ s rfl fun t ht => ht.regFunction,
    andThen_busCycle _ 0 State.regDisplay _ s rfl fun t ht => ht.regDisplay, ← andThen_assoc]
  congr 1
  by_cases he : e = 1
  · simp only [he, if_true]
    rw [andThen_busCycle _ 0 State.regEntry _ s rfl fun t ht => ht.regEntry]
    rfl
  · simp only [busWritesOf, he, if_false]
    rw [andThen_go_self]
    rfl

/-- R125: the characters as bus writes. -/
theorem writeChars_eq (dp : DataHiPos) (text : List Byte) (s : State) (h : s.params.dataHi = dp) :
    writeChars text s = runParts (writesParts dp (text.map fun ch => (1, ch))) s := by
  induction text generalizing s with
  | nil => rfl
  | cons c cs ih =>
    rw [writeChars, List.map_cons, ← busCycle_andThen dp 1 c _ s h, ← runParts_write dp 1 c s h]
    exact andThen_writes_congr fun t ht => ih t (ht.params ▸ h)

/-- R127: display on as the flag D set. -/
theorem displayWith_set_keep_keep (r : Byte) : displayWith r .set .keep .keep = displayOn r := by
  revert r; decide

/-- R125, R127: WRITE_TEXT's writes; the flag D is set before the last. -/
theorem putText_eq (line : Nat) (text : List Byte) (s : State) :
    putText line text s =
      runParts (writesParts s.params.dataHi ((0, if line = 1 then line1AddrCmd else line2AddrCmd) ::
          text.map fun ch => (1, ch)) ++
        .setup (.display .set .keep .keep) :: writesParts s.params.dataHi [(0, displayOn s.regDisplay)]) s := by
  have chars : ∀ a : Byte, (busCycle 0 a s).andThen (writeChars text) =
      runParts (writesParts s.params.dataHi ((0, a) :: text.map fun ch => (1, ch))) s := fun a => by
    rw [← busCycle_andThen _ 0 a _ s rfl, ← runParts_write _ 0 a s rfl]
    exact andThen_writes_congr fun t ht => writeChars_eq _ text t (congrArg Params.dataHi ht.params)
  rw [putText, chars, runParts_append]
  refine andThen_writes_congr fun t ht => ?_
  rw [runParts_setup, runParts_write _ 0 _ _ (by exact congrArg Params.dataHi ht.params)]
  simp only [Setup.apply, displayWith_set_keep_keep, ht.regDisplay]

theorem callerError_writeText (line : Nat) (text : List Byte) (s : State) :
    callerError s (.writeText line text) =
      if line ≠ 1 ∧ line ≠ 2 then some .badLine
      else if textLimit < text.length ∧ s.params.textPolicy = .reject then some .textTooLong else none := rfl

theorem partsOf_writeText (line : Nat) (text : List Byte) (s : State) :
    partsOf s (.writeText line text) =
      writesParts s.params.dataHi ((0, if line = 1 then line1AddrCmd else line2AddrCmd) ::
          (sentText s.params.textPolicy text).map fun ch => (1, ch)) ++
        .setup (.display .set .keep .keep) :: writesParts s.params.dataHi [(0, displayOn s.regDisplay)] := rfl

/-- A text within the limit is sent whole. -/
theorem sentText_short {text : List Byte} (h : ¬ textLimit < text.length) (p : TextPolicy) :
    sentText p text = text := by
  unfold sentText
  split
  · exact List.take_of_length_le (Nat.le_of_not_lt h)
  · rfl

/-- R125, R126: an admitted text is put on the bus; the others raise their error. -/
theorem checkedText_eq (line : Nat) (text : List Byte) (s : State) :
    checkedText line text s =
      match callerError s (.writeText line text) with
      | some c => raiseError c s
      | none => runParts (partsOf s (.writeText line text)) s := by
  rw [callerError_writeText, partsOf_writeText, ← putText_eq, checkedText]
  by_cases hline : line ≠ 1 ∧ line ≠ 2
  · rw [if_pos hline, if_pos hline]
  · rw [if_neg hline, if_neg hline]
    by_cases hl : textLimit < text.length
    · rw [if_pos hl]
      cases hp : s.params.textPolicy <;> simp [hl, sentText]
    · rw [if_neg hl, sentText_short hl]
      simp [hl]

theorem sideFrame_apply_light (on : Bit) (s : State) : sideFrame ((Setup.light on).apply s) = backlight on s := rfl

theorem partsOf_backlightFor (seconds : Nat) (s : State) :
    partsOf s (.backlightFor seconds) =
      sideParts (.light 1) ++ if seconds = 0 then [] else .setup (.wait seconds) :: sideParts (.light 0) := rfl

theorem partsOf_configure (s : State) :
    partsOf s .configure = sideParts (.clear 0) ++ sideParts (.outputs 0) ++ sideParts (.clear 1) := rfl

theorem backlightFor_eq (seconds : Nat) (s : State) :
    backlightFor seconds s = runParts (partsOf s (.backlightFor seconds)) s := by
  rw [partsOf_backlightFor, runParts_append, runParts_sideParts, sideFrame_apply_light, backlightFor]
  congr 1
  funext t
  split
  · rfl
  · rw [runParts_setup, runParts_sideParts, sideFrame_apply_light]
    rfl

theorem configureSession_eq (s : State) :
    configureSession s = (runParts (partsOf s .configure) s).andThen fun t => .go (t.setSession .configured) := by
  have clear : ∀ level, runParts (sideParts (.clear level)) = srClear level := fun level =>
    funext fun t => by rw [runParts_sideParts]; rfl
  have outputs : ∀ level, runParts (sideParts (.outputs level)) = srOe level := fun level =>
    funext fun t => by rw [runParts_sideParts]; rfl
  rw [partsOf_configure, runParts_append, runParts_append, clear, clear, outputs, configureSession]

/-- An instruction that raises no caller-input error and leaves the session alone is its parts. -/
theorem bodyOf_plain {i : Instr} {s : State} (hc : callerError s i = none) (hs : ∀ x, sessionAfter i x = x) :
    bodyOf i s = runParts (partsOf s i) s := by
  simp only [bodyOf, hc, hs]
  exact andThen_go_self _

theorem operate_congr {row : AdmissionRow} {f g : State → Run} {s : State} (h : f s = g s) :
    operate row f s = operate row g s := by
  rw [operate, operate, h]

/-- One bus write, with the register that is set before it. -/
theorem busCycle_eq_parts (i : Instr) (rs : Bit) (b : Byte) (s : State) (hc : callerError s i = none)
    (hs : ∀ x, sessionAfter i x = x) (hp : partsOf s i = writesParts s.params.dataHi [(rs, b)]) :
    busCycle rs b s = bodyOf i s := by
  rw [bodyOf_plain hc hs, hp, runParts_write _ rs b s rfl]

theorem setThenWrite_eq_parts (i : Instr) (x : Setup) (b : Byte) (s : State) (hc : callerError s i = none)
    (hs : ∀ x, sessionAfter i x = x) (hx : (x.apply s).params = s.params)
    (hp : partsOf s i = .setup x :: writesParts s.params.dataHi [(0, b)]) :
    busCycle 0 b (x.apply s) = bodyOf i s := by
  rw [bodyOf_plain hc hs, hp, runParts_setup, runParts_write _ 0 b _ (congrArg Params.dataHi hx)]

theorem sendFrame_eq_parts {w : Nat} (i : Instr) (v : BitVec (w + 1)) (s : State) (hc : callerError s i = none)
    (hs : ∀ x, sessionAfter i x = x) (hp : partsOf s i = [.send v]) : sendFrame v s = bodyOf i s := by
  rw [bodyOf_plain hc hs, hp, runParts_single_send]

theorem sideFrame_eq_parts (i : Instr) (x : Setup) (s : State) (hc : callerError s i = none)
    (hs : ∀ x, sessionAfter i x = x) (hp : partsOf s i = sideParts x) : sideFrame (x.apply s) = bodyOf i s := by
  rw [bodyOf_plain hc hs, hp, runParts_sideParts]

/-- The meaning of every instruction: its row of the admission table and its parts. -/
theorem exec_eq_operate (i : Instr) (s : State) : exec i s = operate (rowOf i) (bodyOf i) s := by
  cases i with
  | shiftOut8 v => exact operate_congr (sendFrame_eq_parts (.shiftOut8 v) v s rfl (fun _ => rfl) rfl)
  | shiftOut16 v => exact operate_congr (sendFrame_eq_parts (.shiftOut16 v) v s rfl (fun _ => rfl) rfl)
  | busWrite rs b => exact operate_congr (busCycle_eq_parts (.busWrite rs b) rs b s rfl (fun _ => rfl) rfl)
  | srClear level =>
    exact operate_congr (sideFrame_eq_parts (.srClear level) (.clear level) s rfl (fun _ => rfl) rfl)
  | srOe level => exact operate_congr (sideFrame_eq_parts (.srOe level) (.outputs level) s rfl (fun _ => rfl) rfl)
  | backlight on => exact operate_congr (sideFrame_eq_parts (.backlight on) (.light on) s rfl (fun _ => rfl) rfl)
  | backlightFor seconds =>
    exact operate_congr ((backlightFor_eq seconds s).trans (bodyOf_plain rfl fun _ => rfl).symm)
  | configure => exact operate_congr (configureSession_eq s)
  | init e => exact operate_congr (initSession_eq e s)
  | clearDisplay => exact operate_congr (busCycle_eq_parts .clearDisplay 0 clearCmd s rfl (fun _ => rfl) rfl)
  | writeText line text =>
    refine operate_congr ((checkedText_eq line text s).trans ?_)
    cases hc : callerError s (.writeText line text) with
    | some c => simp only [bodyOf, hc]
    | none => exact (bodyOf_plain hc fun _ => rfl).symm
  | setEntryMode id d =>
    rw [exec, execSetEntryMode]
    exact operate_congr (setThenWrite_eq_parts (.setEntryMode id d) (.entry id d) _ s rfl (fun _ => rfl) rfl rfl)
  | setDisplay d c b =>
    rw [exec, execSetDisplay]
    exact operate_congr (setThenWrite_eq_parts (.setDisplay d c b) (.display d c b) _ s rfl (fun _ => rfl) rfl rfl)
  | setShift sc rl =>
    rw [exec, execSetShift]
    exact operate_congr (setThenWrite_eq_parts (.setShift sc rl) (.shift sc rl) _ s rfl (fun _ => rfl) rfl rfl)
  | setFunction dl n f =>
    rw [exec, execSetFunction]
    exact operate_congr (setThenWrite_eq_parts (.setFunction dl n f) (.function dl n f) _ s rfl (fun _ => rfl) rfl rfl)
  | sessionEnd => rfl
  | lcdClearDisplay => exact operate_congr (busCycle_eq_parts .lcdClearDisplay 0 clearCmd s rfl (fun _ => rfl) rfl)
  | lcdEntryModeSet id d =>
    exact operate_congr (busCycle_eq_parts (.lcdEntryModeSet id d) 0 _ s rfl (fun _ => rfl) rfl)
  | lcdDisplayControl d c b =>
    exact operate_congr (busCycle_eq_parts (.lcdDisplayControl d c b) 0 _ s rfl (fun _ => rfl) rfl)
  | lcdCursorDisplayShift sc rl low =>
    exact operate_congr (busCycle_eq_parts (.lcdCursorDisplayShift sc rl low) 0 _ s rfl (fun _ => rfl) rfl)
  | lcdFunctionSet dl n f low =>
    exact operate_congr (busCycle_eq_parts (.lcdFunctionSet dl n f low) 0 _ s rfl (fun _ => rfl) rfl)
  | lcdSetDdramAddress a =>
    exact operate_congr (busCycle_eq_parts (.lcdSetDdramAddress a) 0 _ s rfl (fun _ => rfl) rfl)
  | lcdWriteData d => exact operate_congr (busCycle_eq_parts (.lcdWriteData d) 1 d s rfl (fun _ => rfl) rfl)
  | lcdReturnHome low => exact operate_congr (busCycle_eq_parts (.lcdReturnHome low) 0 _ s rfl (fun _ => rfl) rfl)
  | lcdSetCgramAddress a =>
    exact operate_congr (busCycle_eq_parts (.lcdSetCgramAddress a) 0 _ s rfl (fun _ => rfl) rfl)

/-- An admitted instruction, from a state that can step. -/
theorem exec_admitted {i : Instr} {s : State} (hl : s.Live) (ha : s.session ∈ admittedIn i) :
    exec i s = (bodyOf i s).outcome := by
  rw [exec_eq_operate, operate_admitted hl ((admits_rowOf i _).mpr ha)]

/-- An admitted instruction that passes the caller-input checks and leaves the session alone. -/
theorem exec_plain {i : Instr} {s : State} (hl : s.Live) (ha : s.session ∈ admittedIn i)
    (hc : callerError s i = none) (hs : ∀ x, sessionAfter i x = x) :
    exec i s = (runParts (partsOf s i) s).outcome := by
  rw [exec_admitted hl ha, bodyOf_plain hc hs]

/-- An instruction that is not admitted (R115, R139). -/
theorem exec_wrongState {i : Instr} {s : State} (hl : s.Live) (ha : s.session ∉ admittedIn i) :
    exec i s = .next (s.refuse .wrongState) := by
  rw [exec_eq_operate]
  exact operate_wrongState hl (by simpa using mt (admits_rowOf i _).mp ha)

/-- Everything an instruction that answers a next state can have done: it was refused, it raised a caller-input error,
it went through, or it halted in one of its parts. -/
theorem exec_next {i : Instr} {s t : State} (h : exec i s = .next t) :
    s.Live ∧
      ((s.session ∉ admittedIn i ∧ t = s.refuse .wrongState) ∨
       (s.session ∈ admittedIn i ∧
        ((∃ c, callerError s i = some c ∧ t = s.returnCode c) ∨
         (callerError s i = none ∧
          ((∃ u, runParts (partsOf s i) s = .go u ∧
              t = (u.setSession (sessionAfter i u.session)).returnCode .ok) ∨
            runParts (partsOf s i) s = .ended t))))) := by
  rw [exec_eq_operate] at h
  obtain ⟨hl, ⟨ha, hb⟩ | ⟨ha, ht⟩⟩ := operate_next h
  · refine ⟨hl, .inr ⟨(admits_rowOf i _).mp ha, ?_⟩⟩
    cases hc : callerError s i with
    | some c =>
      simp only [bodyOf, hc, raiseError] at hb
      simp only [reduceCtorEq, false_and, exists_false, false_or, Run.ended.injEq] at hb
      exact .inl ⟨c, rfl, hb.symm⟩
    | none =>
      simp only [bodyOf, hc] at hb
      cases hr : runParts (partsOf s i) s with
      | go u => simp [hr] at hb; exact .inr ⟨rfl, .inl ⟨u, rfl, hb⟩⟩
      | ended u => simp [hr] at hb; exact .inr ⟨rfl, .inr (hb ▸ rfl)⟩
  · exact ⟨hl, .inl ⟨fun hm => by simp [(admits_rowOf i _).mpr hm] at ha, ht⟩⟩

end Sys2Proof.Machine
end

section
/-! The invariants (spec/10_state.md R14 to R21, R26; spec/42_side_channels.md R113): each holds after every step
because every part of an operation keeps it. -/

namespace Sys2Proof.Machine

/-- What every instruction keeps, whatever the host has issued, every step keeps. -/
theorem step_keeps {I : State → Prop} (hr : ∀ r s, I s → I (State.refuse r s))
    (hp : ∀ l s, I s → I (State.setPending l s)) (he : ∀ i s t, I s → exec i s = .next t → I t) {s t : State}
    (hs : I s) (h : step s = .next t) : I t := by
  obtain ⟨-, ⟨-, rfl⟩ | ⟨rest, -, rfl⟩ | ⟨q, e, rest, -, ⟨-, rfl⟩ | ⟨-, ⟨w, -, rfl⟩ | ⟨i, -, hx⟩⟩⟩⟩ := step_next h
  · exact hs
  · rw [refuseSecondSession_eq]
    split
    · exact hp _ _ hs
    · exact hr _ _ (hp _ _ hs)
  · exact hr _ _ (hp _ _ hs)
  · exact hr _ _ (hp _ _ hs)
  · exact he i _ t (hp _ _ hs) hx

/-- What the bytes keep and the marks, the log, the transport and the codes do not reach, every transmission keeps. -/
theorem sendFrame_keeps {I : State → Prop} (hb : ∀ b s, I s → I (applyByte b s))
    (ho : ∀ s t : State, t.view = s.view → t.pulse = s.pulse → I s → I t) {w : Nat} (v : BitVec w) (s : State)
    (hs : I s) : (sendFrame v s).Meets I I := by
  have hd : ∀ bs, I (deliver bs (s.setTransport s.transport.tail)) := fun bs =>
    deliver_keeps hb bs _ (ho s _ rfl rfl hs)
  rcases sendFrame_cases v s with ⟨m, -, -, e⟩ | ⟨bs, -, e⟩ | ⟨-, -, e⟩ | ⟨m, p, x, -, -, e⟩ <;> rw [e]
  · exact ho (deliver _ _) _ rfl rfl (hd _)
  · exact hd bs
  · exact ho (deliver _ _) _ rfl rfl (hd _)
  · exact ho (deliver _ _) _ rfl rfl (hd _)

/-! PULSE (R26, R90). -/

/-- R26 as a relation between a view and a pulse. -/
def PulseFits : Option Word → Pulse → Prop
  | none, x => x = .dirty
  | some v, x => if eOf v then x = .dirty ∨ x = .clean (withoutE v) else x = .idle

theorem pulseAgrees_iff (s : State) : s.PulseAgrees ↔ PulseFits s.view s.pulse := by
  unfold State.PulseAgrees PulseFits
  cases s.view <;> rfl

/-- R90 to R93: an edge of two driven views leaves the pulse that fits the second. -/
theorem lcdEdge_fits (a c : Word) (s : State) (h : PulseFits (some a) s.pulse) :
    PulseFits (some c) (lcdEdge a c s).pulse := by
  unfold PulseFits at h ⊢
  cases ha : eOf a <;> cases hc : eOf c <;> simp only [lcdEdge, ha, hc] at h ⊢
  case false.false => simpa using h
  case false.true =>
    by_cases hw : withoutE a = withoutE c <;> simp [hw]
  case true.false => simp
  case true.true =>
    by_cases hw : withoutE a = withoutE c
    · simpa [hw] using h
    · simp [hw]

theorem lcdStep_fits (v0 v1 : Option Word) (s : State) (h : PulseFits v0 s.pulse) :
    PulseFits v1 (lcdStep v0 v1 s).pulse := by
  match v0, v1 with
  | none, none => exact h
  | some _, none => rfl
  | none, some c =>
    unfold PulseFits lcdStep
    dsimp only
    split <;> simp [*]
  | some a, some c =>
    unfold lcdStep
    dsimp only
    split <;> exact lcdEdge_fits a c _ h

theorem applyByte_pulseAgrees (b : Byte) (s : State) (h : s.PulseAgrees) : (applyByte b s).PulseAgrees := by
  rw [pulseAgrees_iff] at h ⊢
  rw [applyByte_view, applyByte_q]
  exact lcdStep_fits _ _ _ h

theorem pulseAgrees_congr (s t : State) (hv : t.view = s.view) (hp : t.pulse = s.pulse) (h : s.PulseAgrees) :
    t.PulseAgrees := by
  rw [pulseAgrees_iff] at h ⊢
  rwa [hv, hp]

theorem Setup.apply_pulseAgrees (x : Setup) (s : State) (h : s.PulseAgrees) : (x.apply s).PulseAgrees :=
  pulseAgrees_congr s _ (by cases x <;> rfl) (by cases x <;> rfl) h

theorem runParts_pulseAgrees (ps : List Part) (s : State) (h : s.PulseAgrees) :
    (runParts ps s).Meets State.PulseAgrees State.PulseAgrees :=
  runParts_keeps Setup.apply_pulseAgrees (fun v t => sendFrame_keeps applyByte_pulseAgrees pulseAgrees_congr v t) ps s h

theorem exec_pulseAgrees (i : Instr) (s t : State) (hs : s.PulseAgrees) (h : exec i s = .next t) : t.PulseAgrees := by
  have key := runParts_pulseAgrees (partsOf s i) s hs
  obtain ⟨-, ⟨-, rfl⟩ | ⟨-, ⟨c, -, rfl⟩ | ⟨-, ⟨u, hu, rfl⟩ | hu⟩⟩⟩ := exec_next h
  · exact pulseAgrees_congr s _ rfl rfl hs
  · exact pulseAgrees_congr s _ rfl rfl hs
  · rw [hu] at key
    exact pulseAgrees_congr u _ rfl rfl key
  · rw [hu] at key
    exact key

/-- Settles O20: every byte keeps PULSE and the view in agreement, and nothing but bytes moves either. -/
theorem pulseAgreesAfterEveryStep : Obligations.PulseAgreesAfterEveryStep := fun _ _ hs h =>
  step_keeps (I := State.PulseAgrees) (fun _ s => pulseAgrees_congr s _ rfl rfl)
    (fun _ s => pulseAgrees_congr s _ rfl rfl) exec_pulseAgrees hs h

/-! The LCD registers (R17 to R21). -/

/-- R58: a ctl field leaves a mask that does not hold its bit alone. -/
theorem applyCtl_and {k : Nat} {mask : Byte} (hk : mask &&& (1#8 <<< k) = 0#8) (r : Byte) (x : Ctl) :
    applyCtl r k x &&& mask = r &&& mask := by
  have hn : ~~~(1#8 <<< k) &&& mask = mask := by
    rw [← BitVec.and_comm]
    apply BitVec.eq_of_getLsbD_eq
    intro j hj
    have hb := congrArg (·.getLsbD j) hk
    simp only [BitVec.getLsbD_and, BitVec.getLsbD_zero] at hb
    simp only [BitVec.getLsbD_and, BitVec.getLsbD_not, hj, decide_true, Bool.true_and]
    revert hb
    cases mask.getLsbD j <;> cases (1#8 <<< k).getLsbD j <;> simp
  cases x with
  | keep => rfl
  | clear => rw [applyCtl, BitVec.and_assoc, hn]
  | set =>
    rw [applyCtl, BitVec.and_or_distrib_right, BitVec.and_assoc, hn, BitVec.and_comm (1#8 <<< k), hk, BitVec.or_zero]

theorem entryFixed_entryWith (r : Byte) (id d : Ctl) : entryFixed (entryWith r id d) = entryFixed r := by
  rw [entryFixed, entryWith, applyCtl_and (by decide), applyCtl_and (by decide), entryFixed]

theorem displayFixed_displayWith (r : Byte) (d c b : Ctl) : displayFixed (displayWith r d c b) = displayFixed r := by
  rw [displayFixed, displayWith, applyCtl_and (by decide), applyCtl_and (by decide), applyCtl_and (by decide),
    displayFixed]

theorem shiftFixed_shiftWith (r : Byte) (sc rl : Ctl) : shiftFixed (shiftWith r sc rl) = shiftFixed r := by
  rw [shiftFixed, shiftWith, applyCtl_and (by decide), applyCtl_and (by decide), shiftFixed]

theorem functionFixed_functionWith (r : Byte) (dl n f : Ctl) :
    functionFixed (functionWith r dl n f) = functionFixed r := by
  rw [functionFixed, functionWith, applyCtl_and (by decide), applyCtl_and (by decide), applyCtl_and (by decide),
    functionFixed]

theorem Setup.apply_registersFixed (x : Setup) (s : State) (h : s.RegistersFixed) : (x.apply s).RegistersFixed := by
  obtain ⟨he, hd, hs, hf⟩ := h
  cases x with
  | entry id d => exact ⟨(entryFixed_entryWith _ _ _).trans he, hd, hs, hf⟩
  | display d c b => exact ⟨he, (displayFixed_displayWith _ _ _ _).trans hd, hs, hf⟩
  | shift sc rl => exact ⟨he, hd, (shiftFixed_shiftWith _ _ _).trans hs, hf⟩
  | function dl n f => exact ⟨he, hd, hs, (functionFixed_functionWith _ _ _ _).trans hf⟩
  | clear | outputs | light | wait => exact ⟨he, hd, hs, hf⟩

theorem registersFixed_congr {s t : State} (k : KeepsSettings s t) (h : s.RegistersFixed) : t.RegistersFixed := by
  rwa [State.RegistersFixed, k.regEntry, k.regDisplay, k.regShift, k.regFunction]

/-- No transmission changes a register, answered or not. -/
theorem sendFrame_settings {w : Nat} (v : BitVec w) (s : State) :
    (sendFrame v s).Meets (KeepsSettings s) (KeepsSettings s) := by
  have hd := fun bs => deliver_settings bs s.transport.tail s
  rcases sendFrame_cases v s with ⟨m, -, -, e⟩ | ⟨bs, -, e⟩ | ⟨-, -, e⟩ | ⟨m, p, x, -, -, e⟩ <;> rw [e]
  · exact (hd _).trans ⟨rfl, rfl, rfl, rfl, rfl⟩
  · exact hd bs
  · exact (hd _).trans ⟨rfl, rfl, rfl, rfl, rfl⟩
  · exact (hd _).trans ⟨rfl, rfl, rfl, rfl, rfl⟩

theorem runParts_registersFixed (ps : List Part) (s : State) (h : s.RegistersFixed) :
    (runParts ps s).Meets State.RegistersFixed State.RegistersFixed :=
  runParts_keeps Setup.apply_registersFixed
    (fun v t ht =>
      (sendFrame_settings v t).mono (fun _ k => registersFixed_congr k ht) fun _ k => registersFixed_congr k ht)
    ps s h

theorem exec_registersFixed (i : Instr) (s t : State) (hs : s.RegistersFixed) (h : exec i s = .next t) :
    t.RegistersFixed := by
  have key := runParts_registersFixed (partsOf s i) s hs
  obtain ⟨-, ⟨-, rfl⟩ | ⟨-, ⟨c, -, rfl⟩ | ⟨-, ⟨u, hu, rfl⟩ | hu⟩⟩⟩ := exec_next h
  · exact hs
  · exact hs
  · rw [hu] at key
    exact key
  · rw [hu] at key
    exact key

/-- Settles O48: the flags a SET_ operation or WRITE_TEXT changes are none of the fixed bits, and nothing else writes a
register. -/
theorem registersKeepFixedBits : Obligations.RegistersKeepFixedBits := fun _ _ hs h =>
  step_keeps (I := State.RegistersFixed) (fun _ _ h => h) (fun _ _ h => h) exec_registersFixed hs h

/-! PINS and ADAPTER (R14, R16, R113). -/

/-- Bytes delivered without a fault leave the adapter at the last of them. -/
theorem deliver_adapter (bs : List Byte) (b : Byte) (s : State) (hf : (deliver (bs ++ [b]) s).faults = []) :
    (deliver (bs ++ [b]) s).adapter = b := by
  induction bs generalizing s with
  | nil =>
    rw [List.nil_append, deliver_cons]
    split <;> simp
  | cons c cs ih =>
    rw [List.cons_append, deliver_cons] at hf ⊢
    split at hf
    next h => rw [if_pos h]; exact ih _ hf
    next h => exact absurd hf h

/-- R69, R71: after a frame that answered `ok` the cache is what the adapter drives. -/
theorem deliver_frame_adapter {w : Nat} (p : Byte) (v : BitVec w) (s : State)
    (hf : (deliver (encodeFrame p v).1 s).faults = []) :
    (deliver (encodeFrame p v).1 s).adapter = (encodeFrame p v).2 := by
  have hl : (encodeFrame p v).1 = (encodeFrame p v).1.dropLast ++ [(encodeFrame p v).2] :=
    (List.dropLast_append_getLast? _ (encodeFrame_getLast? p v)).symm
  rw [hl] at hf ⊢
  exact deliver_adapter _ _ s hf

/-- What a transmission does to the cache, to the adapter and to the marks. -/
theorem sendFrame_pins {w : Nat} (v : BitVec (w + 1)) (s : State) :
    (sendFrame v s).Meets (fun t => t.pins = framePins s.pins (v.getLsbD 0) ∧ t.adapter = t.pins)
      fun t => (t.pins = s.pins ∧ (t.faults ≠ [] ∨ t.stuck = true)) ∨ t.session = .failed := by
  have hd : ∀ bs, (deliver bs (s.setTransport s.transport.tail)).pins = s.pins := fun bs => by
    obtain ⟨es, h⟩ := deliver_downstream bs (s.setTransport s.transport.tail)
    rw [h]
    rfl
  rcases sendFrame_cases v s with ⟨m, -, -, e⟩ | ⟨bs, hf, e⟩ | ⟨-, hf, e⟩ | ⟨m, p, x, -, -, e⟩ <;> rw [e]
  · exact .inl ⟨hd _, .inr rfl⟩
  · exact .inl ⟨hd bs, .inl hf⟩
  · exact ⟨encodeFrame_pins s.pins v, deliver_frame_adapter s.pins v _ hf⟩
  · exact .inr rfl

/-- R14, R113: the pins that no driver of the block uses, and the two backlight bits. -/
def PinsFit (p : Byte) : Prop := p[1] = false ∧ p[6] = p[7]

theorem framePins_fit (p : Byte) (d : Bool) (h : PinsFit p) : PinsFit (framePins p d) := by
  obtain ⟨-, h1, -, -, -, -, h6, h7⟩ := framePins_bits p d
  exact ⟨h1.trans h.1, h6.trans (h.2.trans h7.symm)⟩

theorem drivenPins_fit (p : Byte) (level : Bit) (h : PinsFit p) :
    PinsFit (withClrN p level) ∧ PinsFit (withOeN p level) ∧ PinsFit (withBacklight p level) := by
  unfold PinsFit at *
  revert p level; decide

theorem Setup.apply_pinsFit (x : Setup) (s : State) (h : PinsFit s.pins) : PinsFit (x.apply s).pins := by
  cases x with
  | clear level => exact (drivenPins_fit s.pins level h).1
  | outputs level => exact (drivenPins_fit s.pins level h).2.1
  | light on => exact (drivenPins_fit s.pins on h).2.2
  | wait | entry | display | shift | function => exact h

theorem runParts_pinsFit (ps : List Part) (s : State) (h : PinsFit s.pins) :
    (runParts ps s).Meets (fun t => PinsFit t.pins) State.PinsSound := by
  refine runParts_keeps (G := fun t => PinsFit t.pins) Setup.apply_pinsFit (fun v t ht => ?_) ps s h
  refine (sendFrame_pins v t).mono (fun u hu => hu.1 ▸ framePins_fit _ _ ht) fun u hu hs _ => ?_
  rcases hu with ⟨hp, -⟩ | hs'
  · exact hp ▸ ht
  · exact absurd hs' hs

/-- R115: the sessions that take anything: not Ended, and Failed for SESSION_END alone. -/
theorem session_of_admitted {i : Instr} {x : Session} (h : x ∈ admittedIn i) :
    x ≠ .ended ∧ (x = .failed → i = .sessionEnd) := by
  constructor
  · rintro rfl; cases i <;> simp [admittedIn] at h
  · rintro rfl; cases i <;> simp [admittedIn] at h ⊢

theorem exec_pinsSound (i : Instr) (s t : State) (hs : s.PinsSound) (h : exec i s = .next t) : t.PinsSound := by
  obtain ⟨-, ⟨-, rfl⟩ | ⟨ha, ⟨c, -, rfl⟩ | ⟨-, hr⟩⟩⟩ := exec_next h
  · exact hs
  · exact hs
  · by_cases hi : i = .sessionEnd
    · subst hi
      obtain ⟨u, -, rfl⟩ | hu := hr
      · exact fun _ he => absurd rfl he
      · cases hu
    · obtain ⟨h1, h2⟩ := session_of_admitted ha
      have key := runParts_pinsFit (partsOf s i) s (hs (fun hx => hi (h2 hx)) h1)
      obtain ⟨u, hu, rfl⟩ | hu := hr
      · rw [hu] at key
        exact fun _ _ => key
      · rw [hu] at key
        exact key

/-- Settles O32: the pins an operation drives keep bit 1 and move the backlight bits together, a frame keeps both, and
only a failure draws PINS anew. -/
theorem pinsStaySoundAfterEveryStep : Obligations.PinsStaySoundAfterEveryStep := fun _ _ hs h =>
  step_keeps (I := State.PinsSound) (fun _ _ h => h) (fun _ _ h => h) exec_pinsSound hs h

/-- The last part of a list is a transmission. -/
def EndsWithSend (ps : List Part) : Prop := ∃ (qs : List Part) (w : Nat) (v : BitVec (w + 1)), ps = qs ++ [.send v]

theorem EndsWithSend.append (ps : List Part) {qs : List Part} (h : EndsWithSend qs) : EndsWithSend (ps ++ qs) := by
  obtain ⟨rs, w, v, rfl⟩ := h
  exact ⟨ps ++ rs, w, v, (List.append_assoc _ _ _).symm⟩

theorem EndsWithSend.cons (p : Part) {qs : List Part} (h : EndsWithSend qs) : EndsWithSend (p :: qs) := h.append [p]

theorem sideParts_endsWithSend (x : Setup) : EndsWithSend (sideParts x) := ⟨[.setup x], 7, sideWord, rfl⟩

theorem writesParts_endsWithSend (dp : DataHiPos) {ws : List (Bit × Byte)} (h : ws ≠ []) :
    EndsWithSend (writesParts dp ws) := by
  rw [← List.dropLast_append_getLast h, writesParts_append, writesParts_single]
  exact EndsWithSend.append _ ⟨[.send _, .send _], 15, _, rfl⟩

/-- The parts of an instruction made of bus writes, but for WRITE_TEXT. -/
theorem partsOf_of_writes {i : Instr} {s : State} (h : busWritesOf s i ≠ [])
    (hw : ∀ line text, i ≠ .writeText line text) :
    partsOf s i = registerParts i ++ writesParts s.params.dataHi (busWritesOf s i) := by
  cases i with
  | writeText line text => exact absurd rfl (hw line text)
  | shiftOut8 | shiftOut16 | srClear | srOe | backlight | backlightFor | configure | sessionEnd => exact absurd rfl h
  | _ => rfl

/-- Every operation but SESSION_END ends with a transmission. -/
theorem partsOf_endsWithSend (i : Instr) (s : State) (hi : i ≠ .sessionEnd) : EndsWithSend (partsOf s i) := by
  have writes (j : Instr) (h : busWritesOf s j ≠ []) (hw : ∀ line text, j ≠ .writeText line text) :
      EndsWithSend (partsOf s j) := by
    rw [partsOf_of_writes h hw]
    exact (writesParts_endsWithSend _ h).append _
  cases i with
  | sessionEnd => exact absurd rfl hi
  | shiftOut8 v => exact ⟨[], 7, v, rfl⟩
  | shiftOut16 v => exact ⟨[], 15, v, rfl⟩
  | srClear | srOe | backlight => exact sideParts_endsWithSend _
  | backlightFor seconds =>
    rw [partsOf_backlightFor]
    by_cases h : seconds = 0
    · rw [if_pos h, List.append_nil]
      exact sideParts_endsWithSend _
    · rw [if_neg h]
      exact ((sideParts_endsWithSend _).cons _).append _
  | configure => exact (sideParts_endsWithSend _).append _
  | writeText line text =>
    rw [partsOf_writeText]
    exact ((writesParts_endsWithSend _ (List.cons_ne_nil _ _)).cons _).append _
  | _ => exact writes _ (by simp [busWritesOf]) (by simp)

/-- R16, R71: where the last part of an operation is a transmission and the operation goes through, the cache is what
the adapter drives. -/
theorem runParts_synced {ps : List Part} (hp : EndsWithSend ps) {s u : State} (h : runParts ps s = .go u) :
    u.adapter = u.pins := by
  obtain ⟨qs, w, v, rfl⟩ := hp
  have key : (runParts (qs ++ [.send v]) s).Meets (fun t => t.adapter = t.pins) fun _ => True := by
    rw [runParts_append, funext (runParts_single_send v)]
    have any : (runParts qs s).Meets (fun _ => True) fun _ => True := by cases runParts qs s <;> trivial
    exact any.andThen fun t _ => (sendFrame_pins v t).mono (fun u hu => hu.2) fun _ _ => trivial
  rw [h] at key
  exact key

/-- An operation that halts leaves a fault, the stuck mark or the session Failed. -/
theorem Halted.marks {s t : State} (h : Halted s t) : t.faults ≠ [] ∨ t.stuck = true ∨ t.session = .failed := by
  rcases h with ⟨-, hf⟩ | ⟨u, -, -, rfl | ⟨n, p, x, rfl⟩⟩
  · exact .inl hf
  · exact .inr (.inl rfl)
  · exact .inr (.inr rfl)

theorem cacheMatches_of_over {t : State} (h : t.session = .failed ∨ t.session = .ended) : t.CacheMatches := by
  intro _ _
  rcases h with h | h <;> simp [h]

theorem exec_cacheMatches (i : Instr) (s t : State) (hs : s.CacheMatches) (h : exec i s = .next t) :
    t.CacheMatches := by
  obtain ⟨hl, ⟨-, rfl⟩ | ⟨ha, ⟨c, -, rfl⟩ | ⟨-, hr⟩⟩⟩ := exec_next h
  · exact hs
  · exact hs
  · obtain ⟨u, hu, rfl⟩ | hu := hr
    · by_cases hi : i = .sessionEnd
      · subst hi
        exact cacheMatches_of_over (.inr rfl)
      · have hsync := runParts_synced (partsOf_endsWithSend i s hi) hu
        exact fun _ _ => ⟨fun _ => hsync, fun _ => .inl hsync⟩
    · have key := runParts_meets (partsOf s i) s hl.1
      rw [hu] at key
      rcases Halted.marks key with h1 | h1 | h1
      · exact fun hf => absurd hf h1
      · exact fun _ hstuck => absurd (h1.symm.trans hstuck) (by decide)
      · exact cacheMatches_of_over (.inl h1)

/-- Settles O47: an operation that goes through ends with a frame that leaves the adapter at the cached pins, and one
that does not leaves a mark or the session Failed. -/
theorem cacheMatchesAfterEveryStep : Obligations.CacheMatchesAfterEveryStep := fun _ _ hs h =>
  step_keeps (I := State.CacheMatches) (fun _ _ h => h) (fun _ _ h => h) exec_cacheMatches hs h

end Sys2Proof.Machine
end

section
/-! What an instruction can do to the session, the codes, the log and the marks (spec/60_exceptions.md,
spec/43_lcd_command_state_machine.md R114, R115, R128), and how a step takes what is issued. -/

namespace Sys2Proof.Machine

theorem Progress.kept {s t : State} (h : Progress s t) :
    t.session = s.session ∧ t.refused = s.refused ∧ t.codes = s.codes ∧ t.params = s.params ∧
      t.pending = s.pending ∧ ∃ es, (∀ k, Event.tx k false ∉ es) ∧ t.log = s.log ++ es := by
  obtain ⟨es, he, h⟩ := h
  rw [h]
  exact ⟨rfl, rfl, rfl, rfl, rfl, es, he, rfl⟩

/-- What an instruction that answers a next state can have changed: nothing but the mark where it was refused, nothing
but a code for a caller-input error, and else what its parts changed, with the end it came to. -/
theorem exec_changes {i : Instr} {s t : State} (h : exec i s = .next t) :
    s.Live ∧
      ((s.session ∉ admittedIn i ∧ t = s.refuse .wrongState) ∨
       (s.session ∈ admittedIn i ∧
        ((∃ c, callerError s i = some c ∧ t = s.returnCode c) ∨
         (callerError s i = none ∧
          ((∃ u, Progress s u ∧ u.faults = [] ∧ t = (u.setSession (sessionAfter i s.session)).returnCode .ok) ∨
            Halted s t))))) := by
  obtain ⟨hl, hw | ⟨ha, hc | ⟨hc, hr⟩⟩⟩ := exec_next h
  · exact ⟨hl, .inl hw⟩
  · exact ⟨hl, .inr ⟨ha, .inl hc⟩⟩
  · have key := runParts_meets (partsOf s i) s hl.1
    refine ⟨hl, .inr ⟨ha, .inr ⟨hc, ?_⟩⟩⟩
    obtain ⟨u, hu, rfl⟩ | hu := hr
    · rw [hu] at key
      obtain ⟨hp, hf⟩ := key
      exact .inl ⟨u, hp, hf, by rw [hp.kept.1]⟩
    · rw [hu] at key
      exact .inr key

/-- The ways an operation halts, as they show in the session, the codes, the marks and the log. -/
theorem Halted.shows {s t : State} (h : Halted s t) :
    (t.session = s.session ∧ t.codes = s.codes ∧ t.refused = s.refused) ∨
    (t.session = .failed ∧ t.faults = [] ∧ t.refused = s.refused ∧
      (∃ text, t.codes = s.codes ++ [.transmissionFailed text]) ∧
      ∃ es n, t.log = s.log ++ es ++ [.tx n false] ∧ ∀ k, .tx k false ∉ es) := by
  rcases h with ⟨hp, -⟩ | ⟨u, hp, hf, rfl | ⟨n, p, x, rfl⟩⟩
  · obtain ⟨h1, h2, h3, -⟩ := hp.kept
    exact .inl ⟨h1, h3, h2⟩
  · obtain ⟨h1, h2, h3, -⟩ := hp.kept
    exact .inl ⟨h1, h3, h2⟩
  · obtain ⟨h1, h2, h3, -, -, es, he, hlog⟩ := hp.kept
    exact .inr ⟨rfl, hf, h2, ⟨x, by simp [h3]⟩, es, n, by simp [hlog], he⟩

theorem sessionAfter_ne {i : Instr} {x : Session} (ha : x ∈ admittedIn i) (h : sessionAfter i x ≠ x) :
    (i = .configure ∧ x = .uninitialized) ∨ (∃ e, i = .init e ∧ x = .configured) ∨
      (i = .sessionEnd ∧ x ≠ .ended) := by
  cases i <;> simp [sessionAfter, admittedIn] at h ha ⊢
  · exact ha
  · exact ha
  · exact fun hx => h hx.symm

theorem sessionAfter_ne_failed (i : Instr) {x : Session} (h : x ≠ .failed) : sessionAfter i x ≠ .failed := by
  cases i with
  | configure | init | sessionEnd => exact nofun
  | _ => exact h

/-- Settles O35: the operation's own transition when it goes through, and Failed when a transmission fails. -/
theorem sessionFollowsItsTransitions : Obligations.SessionFollowsItsTransitions := by
  intro i s t h hne
  obtain ⟨-, ⟨-, rfl⟩ | ⟨ha, ⟨c, -, rfl⟩ | ⟨-, ⟨u, -, -, rfl⟩ | hh⟩⟩⟩ := exec_changes h
  · exact absurd rfl hne
  · exact absurd rfl hne
  · rcases sessionAfter_ne ha hne with ⟨rfl, hs⟩ | ⟨e, rfl, hs⟩ | ⟨rfl, hs⟩
    · exact .inl ⟨rfl, hs, rfl⟩
    · exact .inr (.inl ⟨e, rfl, hs, rfl⟩)
    · exact .inr (.inr (.inl ⟨rfl, hs, rfl⟩))
  · rcases hh.shows with ⟨hs, -⟩ | ⟨hs, -, -, hcode, -⟩
    · exact absurd hs hne
    · refine .inr (.inr (.inr ⟨hs, ?_, hcode⟩))
      have hfailed : s.session ≠ .failed := fun hx => hne (hs.trans hx.symm)
      have hended := (session_of_admitted ha).1
      revert hfailed hended
      cases s.session <;> simp

/-- Settles O38: of the ends an operation can come to only a failed transmission leaves a session Failed. -/
theorem failureEndsTheOperation : Obligations.FailureEndsTheOperation := by
  intro i s t h hs ht
  obtain ⟨hl, ⟨-, rfl⟩ | ⟨ha, ⟨c, -, rfl⟩ | ⟨-, ⟨u, -, -, rfl⟩ | hh⟩⟩⟩ := exec_changes h
  · exact absurd ht hs
  · exact absurd ht hs
  · exact absurd ht (sessionAfter_ne_failed i hs)
  · rcases hh.shows with ⟨he, -⟩ | ⟨-, hf, hr, hcode, hlog⟩
    · exact absurd (he.symm.trans ht) hs
    · exact ⟨hf, hr.trans hl.2.1, hcode, hlog⟩

/-- Settles O42: the two branches of admission. -/
theorem admissionTableDecides : Obligations.AdmissionTableDecides := by
  intro i s hl
  refine ⟨fun hn => exec_wrongState hl hn, fun ha t h => ?_⟩
  obtain ⟨-, ⟨hn, -⟩ | ⟨-, ⟨c, -, rfl⟩ | ⟨-, ⟨u, hp, -, rfl⟩ | hh⟩⟩⟩ := exec_changes h
  · exact absurd ha hn
  · exact hl.2.1
  · exact hp.kept.2.1.trans hl.2.1
  · rcases hh.shows with ⟨-, -, hr⟩ | ⟨-, -, hr, -⟩ <;> exact hr.trans hl.2.1

/-- Settles O37: the length check comes before the first part, and no later end returns its code. -/
theorem textTooLongChangesNothing : Obligations.TextTooLongChangesNothing := by
  intro line text s hl ha hline
  have hne : ¬ (line ≠ 1 ∧ line ≠ 2) := fun h => hline.elim h.1 h.2
  have hm : s.session ∈ admittedIn (.writeText line text) := by rw [ha]; exact List.mem_singleton_self _
  constructor
  · intro hlen hp
    have hc : callerError s (.writeText line text) = some .textTooLong := by
      rw [callerError_writeText, if_neg hne, if_pos ⟨hlen, hp⟩]
    rw [exec_admitted hl hm, bodyOf, hc]
    rfl
  · intro hp t h
    have hc : callerError s (.writeText line text) = none := by
      rw [callerError_writeText, if_neg hne, if_neg fun hx => hp hx.2]
    obtain ⟨-, ⟨hn, -⟩ | ⟨-, ⟨c, hc', -⟩ | ⟨-, ⟨u, hu, -, rfl⟩ | hh⟩⟩⟩ := exec_changes h
    · exact absurd hm hn
    · rw [hc] at hc'
      cases hc'
    · simp [hu.kept.2.2.1]
    · rcases hh.shows with ⟨-, hcode, -⟩ | ⟨-, -, -, ⟨x, hcode⟩, -⟩ <;> simp [hcode]

/-- The record of a state: its log, its codes, its parameters and its queue. -/
theorem exec_record {i : Instr} {s t : State} (h : exec i s = .next t) :
    (∃ es, t.log = s.log ++ es) ∧ (t.codes = s.codes ∨ ∃ r, t.codes = s.codes ++ [r]) ∧
      t.params = s.params ∧ t.pending = s.pending := by
  obtain ⟨-, ⟨-, rfl⟩ | ⟨-, ⟨c, -, rfl⟩ | ⟨-, ⟨u, hp, -, rfl⟩ | hh⟩⟩⟩ := exec_changes h
  · exact ⟨⟨[], by simp⟩, .inl rfl, rfl, rfl⟩
  · exact ⟨⟨[], by simp⟩, .inr ⟨c, rfl⟩, rfl, rfl⟩
  · obtain ⟨-, -, hc, h1, h2, es, -, hlog⟩ := hp.kept
    exact ⟨⟨es, hlog⟩, .inr ⟨.ok, by simp [hc]⟩, h1, h2⟩
  · rcases hh with ⟨hp, -⟩ | ⟨u, hp, -, rfl | ⟨n, p, x, rfl⟩⟩ <;> obtain ⟨-, -, hc, h1, h2, es, -, hlog⟩ := hp.kept
    · exact ⟨⟨es, hlog⟩, .inl hc, h1, h2⟩
    · exact ⟨⟨es, hlog⟩, .inl hc, h1, h2⟩
    · exact ⟨⟨es ++ [.tx n false], by simp [hlog]⟩, .inr ⟨.transmissionFailed x, by simp [hc]⟩, h1, h2⟩

/-- Settles O46: what the step itself changes is the queue and the mark, and its instruction only adds to the record. -/
theorem stepOnlyAddsToTheRecord : Obligations.StepOnlyAddsToTheRecord := by
  intro s t h
  have same : ∃ es : List Event, s.log = s.log ++ es := ⟨[], (List.append_nil _).symm⟩
  obtain ⟨-, ⟨-, rfl⟩ | ⟨rest, hp, rfl⟩ | ⟨q, e, rest, hp, ⟨-, rfl⟩ | ⟨-, ⟨w, -, rfl⟩ | ⟨i, -, hx⟩⟩⟩⟩ := step_next h
  · exact ⟨same, .inl rfl, rfl, .inl rfl⟩
  · rw [refuseSecondSession_eq]
    split <;> exact ⟨same, .inl rfl, rfl, .inr (by rw [hp]; rfl)⟩
  · exact ⟨same, .inl rfl, rfl, .inr (by rw [hp]; rfl)⟩
  · exact ⟨same, .inl rfl, rfl, .inr (by rw [hp]; rfl)⟩
  · obtain ⟨hlog, hcodes, hpar, hpend⟩ := exec_record hx
    exact ⟨hlog, hcodes, hpar, .inr (by rw [hpend, hp]; rfl)⟩

/-! The step. -/

theorem step_live {s : State} (hl : s.Live) : step s = takeNext s := by
  obtain ⟨hf, hr, hs⟩ := hl
  simp [step, whenLive, hf, hr, hs]

theorem takeNext_cons {s : State} {issue : Issue} {rest : List Issue} (h : s.pending = issue :: rest) :
    takeNext s = takeIssue issue (s.setPending rest) := by
  simp [takeNext, h]

theorem step_of_refused {s : State} {r : RefusalReason} (hf : s.faults = []) (hr : s.refused = some r) :
    step s = .refused (.sticky r) := by
  simp [step, whenLive, hf, hr]

theorem whenLive_faults {s : State} {r : FaultReason} {l : List FaultReason} (h : s.faults = r :: l)
    (k : Host.Outcome State Fault Refusal) : whenLive s k = .fault (.sticky r) := by
  simp [whenLive, h]

theorem whenLive_refused {s : State} {r : RefusalReason} (hf : s.faults = []) (hr : s.refused = some r)
    (k : Host.Outcome State Fault Refusal) : whenLive s k = .refused (.sticky r) := by
  simp [whenLive, hf, hr]

theorem whenLive_stuck {s : State} (hf : s.faults = []) (hr : s.refused = none) (hs : s.stuck = true)
    (k : Host.Outcome State Fault Refusal) : whenLive s k = .fault .transportNeverAnswers := by
  simp [whenLive, hf, hr, hs]

/-- Settles O43: steps and instructions alike stand behind the one check of the marks. -/
theorem stickyMarksEndTheRun : Obligations.StickyMarksEndTheRun := by
  intro s
  refine ⟨fun r l h => ⟨whenLive_faults h _, fun i => ?_⟩, fun r hf hr => ⟨whenLive_refused hf hr _, fun i => ?_⟩,
    fun hf hr hs => ⟨whenLive_stuck hf hr hs _, fun i => ?_⟩⟩ <;> rw [exec_eq_operate]
  · exact whenLive_faults h _
  · exact whenLive_refused hf hr _
  · exact whenLive_stuck hf hr hs _

/-- Settles O44: the head of the queue, decoded. -/
theorem stepRunsTheIssuedInstruction : Obligations.StepRunsTheIssuedInstruction := by
  intro s hl
  refine ⟨fun hp => ?_, fun request rest i hp hd => ?_⟩
  · rw [step_live hl, takeNext, hp]
  · rw [step_live hl, takeNext_cons hp, takeIssue, takeOperation, hd]
    rfl

/-- Settles O45: the two refusals stand before the session's state is looked at. -/
theorem badIssuesAreRefused : Obligations.BadIssuesAreRefused := by
  intro s request rest hl
  refine ⟨fun hp hd => ?_, fun hp => ?_⟩
  · rw [step_live hl, takeNext_cons hp, takeIssue, takeOperation]
    cases h : decode request with
    | ok i => exact absurd h (hd i)
    | error w => rfl
  · rw [step_live hl, takeNext_cons hp]
    rfl

/-- Settles O56: an open before SESSION_END sets the mark, after which there is no step. -/
theorem secondSessionIsRefused : Obligations.SecondSessionIsRefused := by
  intro s rest hl hp
  have hstep : step s = .next (refuseSecondSession (s.setPending rest)) := by
    rw [step_live hl, takeNext_cons hp, takeIssue]
  rw [refuseSecondSession_eq, State.setPending_session] at hstep
  refine ⟨fun hs => ⟨_, hstep.trans (by rw [if_neg hs]; rfl), rfl, step_of_refused hl.1 rfl⟩, fun hs => ?_⟩
  rw [hstep, if_pos hs]
  rfl

/-! Session end and session start. -/

/-- Settles O34: SESSION_END has no parts. -/
theorem sessionEndLeavesThePins : Obligations.SessionEndLeavesThePins := by
  intro s hl hs
  have ha : s.session ∈ admittedIn .sessionEnd := by
    revert hs
    cases s.session <;> simp [admittedIn]
  rw [exec_admitted hl ha]
  rfl

/-- R154: at a session start PULSE fits the view. -/
theorem startPulse_fits (a0 : Byte) (q : Word) : PulseFits (viewOf a0 q) (startPulse a0 q) := by
  unfold PulseFits viewOf startPulse startsIdle eOf
  by_cases h5 : a0[5] = true <;> by_cases h10 : q[10] = true <;> simp [h5, h10]

theorem startPulse_idle_iff (a0 : Byte) (q : Word) : startPulse a0 q = .idle ↔ CleanStart a0 q := by
  unfold startPulse startsIdle CleanStart eOf
  by_cases h5 : a0[5] = true <;> by_cases h10 : q[10] = true <;> simp [h5, h10]

section
variable (p : Params) (a0 : Byte) (sr q : Word) (transport : Draws Answer) (floats : Draws Nat)

theorem start_live : (State.start p a0 sr q transport floats).Live := ⟨rfl, rfl, rfl⟩

theorem start_pulseAgrees : (State.start p a0 sr q transport floats).PulseAgrees :=
  (pulseAgrees_iff _).mpr (startPulse_fits a0 q)

theorem start_pinsSound : (State.start p a0 sr q transport floats).PinsSound := by
  intro _ _
  show (0x00 : Byte)[1] = false ∧ (0x00 : Byte)[6] = (0x00 : Byte)[7]
  decide

theorem start_cacheMatches : (State.start p a0 sr q transport floats).CacheMatches := by
  intro _ _
  exact ⟨by simp [State.start], fun _ => .inr rfl⟩

theorem start_registersFixed (hp : p.wellFormed = true) : (State.start p a0 sr q transport floats).RegistersFixed := by
  simp only [Params.wellFormed, Bool.and_eq_true] at hp
  obtain ⟨⟨⟨⟨-, he⟩, hd⟩, hs⟩, hf⟩ := hp
  exact ⟨he, hd, hs, hf⟩
end

/-- Settles O49: each invariant at a start with any draws; reset is the start of the default parameters. -/
theorem invariantsHoldAtStart : Obligations.InvariantsHoldAtStart := by
  refine ⟨fun p a0 sr q transport floats hp => ⟨start_live .., start_pulseAgrees ..,
    start_pinsSound _ _ _ _ _ _, start_cacheMatches _ _ _ _ _ _, start_registersFixed _ _ _ _ _ _ hp,
    startPulse_idle_iff a0 q⟩,
    start_live .., start_pulseAgrees .., start_pinsSound _ _ _ _ _ _, start_cacheMatches _ _ _ _ _ _,
    start_registersFixed _ _ _ _ _ _ (by decide)⟩

/-- Settles O51: the cases of opening the adapter, from a live session, from one that SESSION_END left, and from a state
that cannot step. -/
theorem newSessionStartsOverTheChain : Obligations.NewSessionStartsOverTheChain := by
  intro p s
  refine ⟨fun hl hs => ⟨fun opened => ?_, ?_⟩, fun hn opened => ?_⟩
  · obtain ⟨hn, -⟩ | ⟨-, -, h⟩ | ⟨-, he, -⟩ := openSession_cases opened p s
    · exact absurd hl hn
    · exact ⟨_, h, rfl, step_of_refused hl.1 rfl⟩
    · exact absurd he hs
  · have hopen : ∀ opened, openSession opened p { s with session := .ended, codes := s.codes ++ [.ok] } =
        if opened then .session (State.start p s.adapter s.sr s.q s.transport s.floats)
        else .failed .adapterOpenFailed := fun opened => by
      obtain ⟨hn, -⟩ | ⟨-, hne, -⟩ | ⟨-, -, h⟩ :=
        openSession_cases opened p { s with session := .ended, codes := s.codes ++ [.ok] }
      · exact absurd hl hn
      · exact absurd rfl hne
      · exact h
    exact ⟨_, _, sessionEndLeavesThePins s hl hs, hopen false, hopen true, rfl, rfl, rfl, rfl, rfl, rfl, rfl,
      start_live .., start_pulseAgrees .., startPulse_idle_iff s.adapter s.q⟩
  · obtain ⟨-, h⟩ | ⟨hl, -⟩ | ⟨hl, -⟩ := openSession_cases opened p s
    · exact h
    · exact absurd hl hn
    · exact absurd hl hn

end Sys2Proof.Machine
end

section
/-! Flags and lines: the bits of a ctl field's register (spec/30_encoding.md R58) and of the bus word (R51 to R53,
R84). -/

namespace Sys2Proof.Machine

theorem oneBit_getLsbD {k : Nat} (hk : k < 8) (j : Nat) : (1#8 <<< k).getLsbD j = decide (j = k) := by
  have h := byteBitAt_getLsbD true k j
  simp only [byteBitAt, if_true, Bool.true_and] at h
  rw [h]
  by_cases hj : j = k
  · simp [hj, hk]
  · simp [hj]

/-- R58: a ctl field sets its own bit to the level it names and leaves the others. -/
theorem applyCtl_getLsbD {k : Nat} (hk : k < 8) (r : Byte) (x : Ctl) (j : Nat) :
    (applyCtl r k x).getLsbD j = if j = k then ctlLevel x (r.getLsbD j) else r.getLsbD j := by
  cases x with
  | keep => simp [applyCtl, ctlLevel]
  | clear =>
    rw [applyCtl, BitVec.getLsbD_and, BitVec.getLsbD_not, oneBit_getLsbD hk]
    by_cases hj : j = k
    · simp [hj, ctlLevel]
    · by_cases h8 : j < 8
      · simp [hj, h8]
      · simp [hj, BitVec.getLsbD_of_ge r j (Nat.le_of_not_lt h8)]
  | set =>
    rw [applyCtl, BitVec.getLsbD_or, BitVec.getLsbD_and, BitVec.getLsbD_not, oneBit_getLsbD hk]
    by_cases hj : j = k
    · simp [hj, ctlLevel]
    · by_cases h8 : j < 8
      · simp [hj, h8]
      · simp [hj, BitVec.getLsbD_of_ge r j (Nat.le_of_not_lt h8)]

/-- Settles O6: bit by bit; doing it again finds the bit at its level. -/
theorem ctlFieldsAreBitSurgical : Obligations.CtlFieldsAreBitSurgical := by
  intro r k j x hk
  constructor
  · rw [applyCtl_getLsbD hk]
    split
    · cases x <;> rfl
    · rfl
  · apply BitVec.eq_of_getLsbD_eq
    intro i _
    simp only [applyCtl_getLsbD hk]
    split
    · cases x <;> rfl
    · rfl

/-- Settles O54: each register's byte, bit by bit. -/
theorem registerFlagsStandAtTheirBits : Obligations.RegisterFlagsStandAtTheirBits := by
  intro r
  refine ⟨fun id s => ?_, fun d c b => ?_, fun sc rl => ?_, fun dl n f => ?_⟩ <;>
    apply BitVec.eq_of_getLsbD_eq <;> intro j hj <;>
    simp only [BitVec.getLsbD_append, BitVec.getLsbD_extractLsb', BitVec.getLsbD_ofBool]
  · rw [entryWith, applyCtl_getLsbD (by decide), applyCtl_getLsbD (by decide)]
    interval_cases j <;> simp
  · rw [displayWith, applyCtl_getLsbD (by decide), applyCtl_getLsbD (by decide), applyCtl_getLsbD (by decide)]
    interval_cases j <;> simp
  · rw [shiftWith, applyCtl_getLsbD (by decide), applyCtl_getLsbD (by decide)]
    interval_cases j <;> simp
  · rw [functionWith, applyCtl_getLsbD (by decide), applyCtl_getLsbD (by decide), applyCtl_getLsbD (by decide)]
    interval_cases j <;> simp

/-- R52, R84: a line of the bus word that carries neither RS nor data is low. -/
theorem busWord_low (dp : DataHiPos) (rs : Bit) (b : Byte) {j : Nat} (h8 : j ≠ 8)
    (hd : ∀ k, k < 8 → j ≠ dataPos dp k) : (busWord dp rs b).getLsbD j = false := by
  have hmap : (mapByte dp b).getLsbD j = false := by
    rw [mapByte_getLsbD]
    simp only [Bool.and_eq_false_iff, List.any_eq_false]
    refine .inr fun k hk => ?_
    have hk8 : k < 8 := by simp at hk; omega
    simp [hd k hk8]
  have hrs : (rs.setWidth 16 <<< 8).getLsbD j = false := by
    by_cases hj : j < 8
    · simp [hj]
    · rw [BitVec.getLsbD_shiftLeft, BitVec.getLsbD_setWidth, BitVec.getLsbD_of_ge rs (j - 8) (by omega)]
      simp
  rw [busWord, BitVec.getLsbD_or, hmap, hrs]
  rfl

/-- R52: `Unmap` undoes the bus word. -/
theorem unmapWord_busWord (dp : DataHiPos) (rs : Bit) (b : Byte) (hd : dp.distinct = true) :
    unmapWord dp (busWord dp rs b) = b := by
  apply BitVec.eq_of_getLsbD_eq
  intro k hk
  rw [unmapWord_getLsbD _ _ _ hk, busWord_data _ _ _ hd hk]

theorem busWord_zero (dp : DataHiPos) (b : Byte) : mapByte dp b = busWord dp 0 b := by
  simp [busWord]

/-- R51, R84: the three control lines of the bus word. -/
theorem busWord_lines (dp : DataHiPos) (rs : Bit) (b : Byte) :
    (busWord dp rs b).extractLsb' 8 1 = rs ∧ rwOf (busWord dp rs b) = false ∧ eOf (busWord dp rs b) = false := by
  obtain ⟨h8, h9, h10⟩ := busWord_control dp rs b
  refine ⟨?_, by simpa [rwOf] using h9, by simpa [eOf] using h10⟩
  apply BitVec.eq_of_getLsbD_eq
  intro k hk
  obtain rfl : k = 0 := by omega
  simpa using h8

/-- Settles O5: the lines of the bus word one by one. -/
theorem dataPinMapIsReversible : Obligations.DataPinMapIsReversible := by
  intro dp rs b hd
  obtain ⟨h8, h9, h10⟩ := busWord_lines dp rs b
  have line {k : Nat} (hk : k < 8) := busWord_data dp rs b hd hk
  refine ⟨busWord_zero dp b ▸ unmapWord_busWord dp 0 b hd, unmapWord_busWord dp rs b hd, busWord_zero dp b, h8, h9, h10,
    fun k hk => ?_, line (k := 5) (by decide), line (k := 6) (by decide), line (k := 7) (by decide),
    fun j hj h8 h5 h6 h7 => busWord_low dp rs b h8 fun k hk => ?_, fun q => ?_⟩
  · have hpos : dataPos dp k = 11 + k := by interval_cases k <;> rfl
    rw [← hpos, line (by omega)]
  · interval_cases k
    · exact fun h => absurd (h ▸ hj : dataPos dp 0 < 11) (by simp [dataPos])
    · exact fun h => absurd (h ▸ hj : dataPos dp 1 < 11) (by simp [dataPos])
    · exact fun h => absurd (h ▸ hj : dataPos dp 2 < 11) (by simp [dataPos])
    · exact fun h => absurd (h ▸ hj : dataPos dp 3 < 11) (by simp [dataPos])
    · exact fun h => absurd (h ▸ hj : dataPos dp 4 < 11) (by simp [dataPos])
    · exact h5
    · exact h6
    · exact h7
  · have read {k : Nat} (hk : k < 8) := unmapWord_getLsbD dp q k hk
    refine ⟨fun k hk => ?_, read (k := 5) (by decide), read (k := 6) (by decide), read (k := 7) (by decide)⟩
    rw [read (by omega)]
    interval_cases k <;> rfl

/-! The LCD's input pins (spec/41_lcd_write_sequencer.md R90 to R96) and one byte (spec/40_shift_loader.md R75 to
R77). -/

/-- R93: an edge of E that falls without a clean pulse of the same view logs an unknown transfer. -/
theorem latched_unclean {dp : DataHiPos} {x : Pulse} {c : Word} (h : x ≠ .clean (withoutE c)) :
    latched dp x c = .anyTransfer := by
  cases x with
  | clean y =>
    have hy : ¬ withoutE c = y := fun e => h (e ▸ rfl)
    simp [latched, hy]
  | idle => rfl
  | dirty => rfl

/-- Settles O19: the cases of R90. -/
theorem uncleanInputsAreUnknown : Obligations.UncleanInputsAreUnknown := by
  intro a y s
  refine ⟨fun hc => ⟨fun ha hy hw => ?_, fun ha hy hw => ?_, fun ha hy hw => ?_, fun ha hy hp => ?_⟩, rfl, rfl,
    fun hc hf => ?_, fun hc hf => ?_⟩
  · simp [lcdStep, lcdEdge, hc, ha, hy, hw, State.setPulse]
  · simp [lcdStep, lcdEdge, hc, ha, hy, hw, State.setPulse]
  · simp [lcdStep, lcdEdge, hc, ha, hy, hw, State.setPulse]
  · simp [lcdStep, lcdEdge, hc, ha, hy, latched_unclean hp, State.setPulse, State.logEvents]
  · have hy : eOf y = true := by simp only [contended, Bool.and_eq_true] at hc; exact hc.1
    cases ha : eOf a <;> by_cases hw : withoutE a = withoutE y <;>
      simp [lcdStep, lcdEdge, hc, ha, hy, hw, State.setPulse, State.addFault, hf]
  · have hy : eOf y = true := by simp only [contended, Bool.and_eq_true] at hc; exact hc.1
    cases ha : eOf a <;> by_cases hw : withoutE a = withoutE y <;>
      simp [lcdStep, lcdEdge, hc, ha, hy, hw, hf]

/-- Settles O11: Q by the edge of RCLK. -/
theorem latchLoadsOutputs : Obligations.LatchLoadsOutputs := by
  intro b s
  rw [applyByte_q, nextQ]
  refine ⟨fun ha hb => by simp [ha, hb, clearStage], fun h => ?_⟩
  rcases h with h | h <;> simp [h]

/-- R76: one shift, bit by bit. -/
theorem shiftIn_getLsbD (sr : Word) (d : Bool) : (shiftIn sr d).getLsbD 0 = d ∧
    ∀ i, i < 15 → (shiftIn sr d).getLsbD (i + 1) = sr.getLsbD i := by
  refine ⟨by cases d <;> simp [shiftIn], fun i hi => ?_⟩
  have h1 : i + 1 < 16 := by omega
  have h2 : i < 16 := by omega
  cases d <;> simp [shiftIn, h1, h2, BitVec.getLsbD_eq_getElem]

/-- Settles O12: the stage by CLR_N and the edge of SRCLK. -/
theorem clockShiftsStage : Obligations.ClockShiftsStage := by
  intro b s
  rw [applyByte_sr, nextSr]
  refine ⟨fun h4 => by simp [h4, clearStage], fun h4 ha hb => ?_, fun h4 h => ?_⟩
  · simpa [h4, ha, hb, clearStage] using shiftIn_getLsbD s.sr (b[0])
  · rcases h with h | h <;> simp [h4, h, clearStage]

end Sys2Proof.Machine
end

section
/-! The bytes of a serial frame (spec/40_shift_loader.md R65 to R70, R83; spec/41_lcd_write_sequencer.md R87). -/

namespace Sys2Proof.Machine

/-- The bytes of a frame are byte 0, the clocked bits and the new pins. -/
theorem encodeFrame_bytes {w : Nat} (p : Byte) (v : BitVec w) :
    (encodeFrame p v).1 = (rclkLow p :: (clockBits (rclkLow p) (bitsDown v w)).1) ++ [(encodeFrame p v).2] := rfl

/-- A byte that keeps what the clocked bits keep keeps every pin but SER, RCLK and SRCLK, and has RCLK where
they have. -/
theorem kept_pins {b p : Byte} (h : b &&& 0xF6 = p &&& 0xF6) : b &&& 0xF2 = p &&& 0xF2 ∧ b[2] = p[2] ∧ b[5] = p[5] := by
  have hmask : (0xF6 : Byte) &&& 0xF2 = 0xF2 := rfl
  have hbit : ∀ i, ((b &&& 0xF6).getLsbD i) = ((p &&& 0xF6).getLsbD i) := fun i => by rw [h]
  refine ⟨by rw [← hmask, ← BitVec.and_assoc, ← BitVec.and_assoc, h], ?_, ?_⟩
  · simpa using hbit 2
  · simpa using hbit 5

/-- The bytes before the last have RCLK low, and no pin but SER and SRCLK moves among them. -/
theorem encodeFrame_body {w : Nat} (p : Byte) (v : BitVec w) :
    ∀ b ∈ rclkLow p :: (clockBits (rclkLow p) (bitsDown v w)).1, b &&& 0xF6 = rclkLow p &&& 0xF6 := by
  intro b hb
  rcases List.mem_cons.mp hb with rfl | hb
  · rfl
  · exact clockBits_keeps _ _ b hb

theorem rclkLow_kept (p : Byte) : rclkLow p &&& 0xF2 = p &&& 0xF2 := by revert p; decide

theorem framePins_kept (p : Byte) (d : Bool) : framePins p d &&& 0xF2 = p &&& 0xF2 := by revert p d; decide

/-- Settles O8: the bytes before the last move SER, RCLK and SRCLK, and so does the last. -/
theorem frameKeepsOtherPins : Obligations.FrameKeepsOtherPins := by
  intro w p v
  refine ⟨encodeFrame_getLast? p v, encodeFrame_pins p v, fun b hb => ?_⟩
  rw [encodeFrame_bytes, List.mem_append, List.mem_singleton] at hb
  rcases hb with hb | rfl
  · rw [(kept_pins (encodeFrame_body p v b hb)).1, rclkLow_kept]
  · rw [encodeFrame_pins, framePins_kept]

/-! Part of a frame. -/

/-- The first bytes of a frame, short of the last, have RCLK low and OE_N as the pins have it. -/
theorem take_frame_body {w m : Nat} (p : Byte) (v : BitVec w) (hm : m ≤ 4 * w + 1) :
    ∀ b ∈ (encodeFrame p v).1.take m, b[2] = false ∧ b[5] = p[5] := by
  intro b hb
  have hlen : (rclkLow p :: (clockBits (rclkLow p) (bitsDown v w)).1).length = 4 * w + 1 := by
    simp [clockBits_length]
  rw [encodeFrame_bytes, List.take_append_of_le_length (hlen ▸ hm)] at hb
  obtain ⟨-, h2, h5⟩ := kept_pins (encodeFrame_body p v b (List.mem_of_mem_take hb))
  obtain ⟨e2, -, -, e5⟩ := rclkLow_pins p
  exact ⟨h2.trans e2, h5.trans e5⟩

/-- Bytes that raise no latch edge leave Q. -/
theorem deliver_q_of_rclkLow (bs : List Byte) (s : State) (h : ∀ b ∈ bs, b[2] = false) : (deliver bs s).q = s.q := by
  induction bs generalizing s with
  | nil => rfl
  | cons b bs ih =>
    have hq : (applyByte b s).q = s.q := by
      rw [applyByte_q, nextQ, h b List.mem_cons_self]
      simp
    rw [deliver_cons]
    split
    · rw [ih _ fun c hc => h c (List.mem_cons_of_mem _ hc), hq]
    · exact hq

/-- Settles O14: the bytes before the last have RCLK low. -/
theorem outputsWaitForLastByte : Obligations.OutputsWaitForLastByte := fun _ _ p v s hm =>
  deliver_q_of_rclkLow _ s fun b hb => (take_frame_body p v hm b hb).1

/-! The bytes by their index. -/

/-- The level of a bit as SER. -/
def serByte (d : Bool) : Byte := if d then 1 else 0

/-- SER before the `n`-th bit of a frame: the pins' for the first, the bit before for the others. -/
def serBefore (p : Byte) (ds : List Bool) (n : Nat) : Bool := if n = 0 then p[0] else ds.getD (n - 1) false

theorem bit_bytes (p : Byte) (d : Bool) :
    srclkLow p = (p &&& 0xF6#8) ||| serByte p[0] ∧ withSer (srclkLow p) d = (p &&& 0xF6) ||| serByte d ∧
    srclkHigh (withSer (srclkLow p) d) = (p &&& 0xF6) ||| 0x08 ||| serByte d ∧
    srclkHigh (withSer (srclkLow p) d) &&& 0xF6 = p &&& 0xF6 ∧ (srclkHigh (withSer (srclkLow p) d))[0] = d := by
  revert p d; decide

/-- R66: the four bytes of the `n`-th bit. -/
theorem clockBits_getElem? (p : Byte) (ds : List Bool) (n : Nat) (hn : n < ds.length) :
    (clockBits p ds).1[4 * n]? = some ((p &&& 0xF6) ||| serByte (serBefore p ds n)) ∧
    (clockBits p ds).1[4 * n + 1]? = some ((p &&& 0xF6) ||| serByte (ds.getD n false)) ∧
    (clockBits p ds).1[4 * n + 2]? = some ((p &&& 0xF6) ||| 0x08 ||| serByte (ds.getD n false)) ∧
    (clockBits p ds).1[4 * n + 3]? = some ((p &&& 0xF6) ||| 0x08 ||| serByte (ds.getD n false)) := by
  induction ds generalizing p n with
  | nil => exact absurd hn (Nat.not_lt_zero _)
  | cons d ds ih =>
    obtain ⟨b1, b2, b3, b4, b5⟩ := bit_bytes p d
    rw [clockBits_cons]
    cases n with
    | zero => exact ⟨congrArg some b1, congrArg some b2, congrArg some b3, congrArg some b3⟩
    | succ n =>
      obtain ⟨i0, i1, i2, i3⟩ := ih (srclkHigh (withSer (srclkLow p) d)) n (by simpa using hn)
      have hser : serBefore (srclkHigh (withSer (srclkLow p) d)) ds n = serBefore p (d :: ds) (n + 1) := by
        cases n with
        | zero => simp [serBefore, b5]
        | succ n => simp [serBefore]
      rw [b4] at i0 i1 i2 i3
      rw [hser] at i0
      exact ⟨i0, i1, i2, i3⟩

theorem bitsDown_getD {w : Nat} (v : BitVec w) (m n : Nat) (hn : n < m) :
    (bitsDown v m).getD n false = v.getLsbD (m - 1 - n) := by
  induction m generalizing n with
  | zero => omega
  | succ m ih =>
    cases n with
    | zero => simp
    | succ n =>
      rw [bitsDown_succ, List.getD_cons_succ, ih n (by omega)]
      congr 1
      omega

theorem rclkLow_ser (p : Byte) : (rclkLow p)[0] = p[0] := by revert p; decide

theorem serBefore_bitsDown {w : Nat} (p : Byte) (v : BitVec w) (n : Nat) (hn : n < w) :
    serBefore (rclkLow p) (bitsDown v w) n = if n = 0 then p[0] else v.getLsbD (w - n) := by
  unfold serBefore
  split
  · exact rclkLow_ser p
  · rw [bitsDown_getD v w (n - 1) (by omega)]
    congr 1
    omega

theorem rclkLow_clocked (p : Byte) : rclkLow p &&& 0xF6 = p &&& 0xF2 ∧ rclkLow p = p &&& 0xFB := by
  revert p; decide

/-- R70: the bytes of a frame by their index. -/
theorem encodeFrame_getElem? {w : Nat} (p : Byte) (v : BitVec w) :
    (encodeFrame p v).1[0]? = some (p &&& 0xFB) ∧
    (∀ n, n < w →
      (encodeFrame p v).1[4 * n + 1]? =
        some ((p &&& 0xF2) ||| serByte (if n = 0 then p[0] else v.getLsbD (w - n))) ∧
      (encodeFrame p v).1[4 * n + 2]? = some ((p &&& 0xF2) ||| serByte (v.getLsbD (w - 1 - n))) ∧
      (encodeFrame p v).1[4 * n + 3]? = some ((p &&& 0xF2) ||| 0x08 ||| serByte (v.getLsbD (w - 1 - n))) ∧
      (encodeFrame p v).1[4 * n + 4]? = some ((p &&& 0xF2) ||| 0x08 ||| serByte (v.getLsbD (w - 1 - n)))) ∧
    (encodeFrame p v).1[4 * w + 1]? = some (encodeFrame p v).2 := by
  obtain ⟨hk, h0⟩ := rclkLow_clocked p
  have hlen : (clockBits (rclkLow p) (bitsDown v w)).1.length = 4 * w := by simp [clockBits_length]
  rw [encodeFrame_bytes, List.cons_append]
  refine ⟨by simp [h0], fun n hn => ?_, by simp [hlen]⟩
  obtain ⟨c0, c1, c2, c3⟩ := clockBits_getElem? (rclkLow p) (bitsDown v w) n (by simpa using hn)
  rw [hk] at c0 c1 c2 c3
  rw [serBefore_bitsDown p v n hn] at c0
  rw [bitsDown_getD v w n hn] at c1 c2 c3
  simp only [List.getElem?_cons_succ]
  refine ⟨?_, ?_, ?_, ?_⟩ <;> rw [List.getElem?_append_left (by omega)]
  · exact c0
  · exact c1
  · exact c2
  · exact c3

/-- Settles O9: the closed form of each byte. -/
theorem frameShape : Obligations.FrameShape := by
  intro w p v
  obtain ⟨h0, hn, hlast⟩ := encodeFrame_getElem? p v
  refine ⟨h0, hn, ?_⟩
  rw [hlast]
  exact (rclkHigh_pins _).1

/-! The three phases of a bus write. -/

/-- Pins that are as a frame with SER low leaves them stay so. -/
theorem framePins_self {p : Byte} (h0 : p[0] = false) (h2 : p[2] = true) (h3 : p[3] = true) :
    framePins p false = p := by
  revert p; decide

theorem serByte_set (x : Byte) : (x ||| serByte false) ||| 0x01 = x ||| serByte true := by
  rw [BitVec.or_assoc]
  rfl

/-- A byte of phase 2 beside that of phase 1: SER goes from 0 to 1 where the bit sent is E. -/
theorem serByte_raised {j n : Nat} {d : Bool} (x : Byte) (hj : 22 ≤ j ∧ j ≤ 25 ↔ n = 10) (hd : n = 10 → d = false) :
    x ||| serByte (d || decide (n = 10)) = if 22 ≤ j ∧ j ≤ 25 then (x ||| serByte d) ||| 0x01 else x ||| serByte d := by
  by_cases h : n = 10
  · rw [if_pos (hj.mpr h), hd h, serByte_set]
    simp [h]
  · rw [if_neg fun hx => h (hj.mp hx)]
    simp [h]

/-- Settles O10: the pins are the same before each phase, and the words differ in bit 10, which is the sixth bit
sent. -/
theorem phasesDifferInEnableOnly : Obligations.PhasesDifferInEnableOnly := by
  intro p v h0 h2 h3 v0 v10
  have raised : ∀ i, i < 16 → (v ||| 0x0400).getLsbD i = (v.getLsbD i || decide (i = 10)) := fun i hi => by
    rw [BitVec.getLsbD_or]
    exact congrArg (v.getLsbD i || ·) (eMask_getLsbD i)
  have pins1 : (encodeFrame p v).2 = p := by
    rw [encodeFrame_pins (w := 15), BitVec.getLsbD_eq_getElem (by decide), v0, framePins_self h0 h2 h3]
  have pins2 : (encodeFrame p (v ||| 0x0400)).2 = p := by
    rw [encodeFrame_pins (w := 15), raised 0 (by decide), BitVec.getLsbD_eq_getElem (by decide), v0]
    exact framePins_self h0 h2 h3
  have word3 : v &&& ~~~0x0400#16 = v := by
    apply BitVec.eq_of_getLsbD_eq
    intro i hi
    have he : (0x0400#16).getLsbD i = decide (i = 10) := eMask_getLsbD i
    rw [BitVec.getLsbD_and, BitVec.getLsbD_not, he]
    by_cases h : i = 10
    · subst h
      simpa using v10.symm
    · simp [h, hi]
  intro f1 f2 f3
  have hf2 : f2 = encodeFrame p (v ||| 0x0400) := congrArg (encodeFrame · (v ||| 0x0400)) pins1
  have hf3 : f3 = encodeFrame p v := by
    show encodeFrame f2.2 _ = _
    rw [hf2, pins2, word3]
  refine ⟨congrArg Prod.fst hf3, fun j hj => ?_⟩
  rw [hf2]
  obtain ⟨a0, an, alast⟩ := encodeFrame_getElem? p v
  obtain ⟨b0, bn, blast⟩ := encodeFrame_getElem? p (v ||| 0x0400)
  have bit10 : ∀ i, i = 10 → v.getLsbD i = false := fun i hi => by
    rw [hi, BitVec.getLsbD_eq_getElem (by decide), v10]
  have hcase : j = 0 ∨ j = 65 ∨ ∃ n, n < 16 ∧ (j = 4 * n + 1 ∨ j = 4 * n + 2 ∨ j = 4 * n + 3 ∨ j = 4 * n + 4) := by
    by_cases h : j = 0 ∨ j = 65
    · omega
    · exact .inr (.inr ⟨(j - 1) / 4, by omega, by omega⟩)
  rcases hcase with rfl | rfl | ⟨n, hn, h⟩
  · rw [a0, b0]
    rfl
  · rw [alast, blast, pins1, pins2]
    rfl
  · obtain ⟨a1, a2, a3, a4⟩ := an n hn
    obtain ⟨b1, b2, b3, b4⟩ := bn n hn
    rw [raised _ (by omega)] at b2 b3 b4
    rcases h with h | h | h | h <;> rw [h]
    · rw [a1, b1, Option.map_some]
      by_cases h1 : n = 0
      · subst h1
        rfl
      · rw [if_neg h1, if_neg h1, raised _ (by omega)]
        exact congrArg some (serByte_raised _ (by omega) (bit10 _))
    · rw [a2, b2, Option.map_some]
      exact congrArg some (serByte_raised _ (by omega) (bit10 _))
    · rw [a3, b3, Option.map_some]
      exact congrArg some (serByte_raised _ (by omega) (bit10 _))
    · rw [a4, b4, Option.map_some]
      exact congrArg some (serByte_raised _ (by omega) (bit10 _))

end Sys2Proof.Machine
end

section
/-! Two runs side by side: what a relation between two states needs to hold through an operation
(spec/60_exceptions.md R133, R134, R146, R148). -/

namespace Sys2Proof.Machine

/-- Two runs that stand in the same way, with their states related: by `G` where they go on, by `E` where they are
over. -/
def Run.Both (G E : State → State → Prop) : Run → Run → Prop
  | .go s, .go s' => G s s'
  | .ended s, .ended s' => E s s'
  | .go _, .ended _ => False
  | .ended _, .go _ => False

theorem Run.Both.andThen {G H E : State → State → Prop} {r r' : Run} {k k' : State → Run} (h : r.Both G E r')
    (hk : ∀ s s', G s s' → (k s).Both H E (k' s')) : (r.andThen k).Both H E (r'.andThen k') := by
  cases r <;> cases r'
  case go.go s s' => exact hk s s' h
  case go.ended => exact h.elim
  case ended.go => exact h.elim
  case ended.ended => exact h

theorem Run.Both.of_go {G E : State → State → Prop} {s : State} {r : Run} (h : (Run.go s).Both G E r) :
    ∃ s', r = .go s' ∧ G s s' := by
  cases r with
  | go s' => exact ⟨s', rfl, h⟩
  | ended s' => exact h.elim

theorem Run.Both.of_ended {G E : State → State → Prop} {s : State} {r : Run} (h : (Run.ended s).Both G E r) :
    ∃ s', r = .ended s' ∧ E s s' := by
  cases r with
  | go s' => exact h.elim
  | ended s' => exact ⟨s', rfl, h⟩

/-- A relation that every part keeps, the parts of an operation keep. -/
theorem runParts_both {G E : State → State → Prop} (hset : ∀ x s s', G s s' → G (Setup.apply s x) (Setup.apply s' x))
    (hsend : ∀ {w : Nat} (v : BitVec (w + 1)) s s', G s s' → (sendFrame v s).Both G E (sendFrame v s'))
    (ps : List Part) (s s' : State) (h : G s s') : (runParts ps s).Both G E (runParts ps s') := by
  induction ps generalizing s s' with
  | nil => exact h
  | cons p ps ih =>
    cases p with
    | setup x => exact ih _ _ (hset x s s' h)
    | send v => exact (hsend v s s' h).andThen ih

/-! A transmission that never answers beside one that fails. -/

/-- A byte looks at no transport. -/
theorem applyByte_setTransport (b : Byte) (d : Draws Answer) (s : State) :
    applyByte b (s.setTransport d) = (applyByte b s).setTransport d :=
  lcdStep_setTransport _ _ d (s.setChain b (nextSr s.adapter b s.sr) (nextQ s.adapter b s.sr s.q))

theorem deliver_setTransport (bs : List Byte) (d : Draws Answer) (s : State) :
    deliver bs (s.setTransport d) = (deliver bs s).setTransport d := by
  induction bs generalizing s with
  | nil => rfl
  | cons b bs ih =>
    rw [deliver_cons, deliver_cons, applyByte_setTransport, State.setTransport_faults]
    split
    · exact ih _
    · rfl

theorem oksThen_succ (j : Nat) (a : Answer) (d : Draws Answer) :
    (Draws.oksThen (j + 1) a d).head = .ok ∧ (Draws.oksThen (j + 1) a d).tail = Draws.oksThen j a d := ⟨rfl, rfl⟩

theorem oksThen_zero (a : Answer) (d : Draws Answer) :
    (Draws.oksThen 0 a d).head = a ∧ (Draws.oksThen 0 a d).tail = d := ⟨rfl, rfl⟩

theorem deliver_session_codes (bs : List Byte) (s : State) :
    (deliver bs s).session = s.session ∧ (deliver bs s).codes = s.codes := by
  obtain ⟨es, h⟩ := deliver_downstream bs s
  rw [h]
  exact ⟨rfl, rfl⟩

/-- The two runs before the transmission that fails in one and never answers in the other: `j` answers from it, and else
alike. -/
def AwaitSilence (m : Nat) (pins : Byte) (text : List Byte) (d : Draws Answer) (x : Session) (cs : List ReturnCode)
    (s s' : State) : Prop :=
  s.session = x ∧ s.codes = cs ∧
    ∃ j, s.transport = Draws.oksThen j (.fail m pins text) d ∧ s' = s.setTransport (Draws.oksThen j (.never m) d)

/-- Where the one run has failed, the other is stuck with what the failure's answer brought undone. -/
def SilentBeside (x : Session) (cs : List ReturnCode) (t t' : State) : Prop :=
  t.session = .failed →
    ∃ p, t' = { t with pins := p, session := x, stuck := true, log := t.log.dropLast, codes := cs }

section
variable {m : Nat} {pins : Byte} {text : List Byte} {d : Draws Answer} {x : Session} {cs : List ReturnCode}

theorem unlessFaulted_both {G E : State → State → Prop} {u u' : State} {k k' : State → Run}
    (hf : u'.faults = u.faults) (hE : E u u') (hk : u.faults = [] → (k u).Both G E (k' u')) :
    (unlessFaulted u k).Both G E (unlessFaulted u' k') := by
  unfold unlessFaulted
  rw [hf]
  cases h : u.faults with
  | nil => exact hk h
  | cons r l => exact hE

theorem sendFrame_awaitSilence (hx : x ≠ .failed) {w : Nat} (v : BitVec (w + 1)) (s s' : State)
    (h : AwaitSilence m pins text d x cs s s') :
    (sendFrame v s).Both (AwaitSilence m pins text d x cs) (SilentBeside x cs) (sendFrame v s') := by
  obtain ⟨hs, hc, j, ht, rfl⟩ := h
  cases j with
  | succ j =>
    obtain ⟨h1, h2⟩ := oksThen_succ j (.fail m pins text) d
    obtain ⟨h3, h4⟩ := oksThen_succ j (.never m) d
    obtain ⟨k1, k2⟩ := deliver_session_codes (encodeFrame s.pins v).1 s
    simp only [sendFrame, ht, h1, h2, State.setTransport_transport, h3, h4, State.setTransport_pins,
      deliver_setTransport]
    refine unlessFaulted_both rfl (fun hf => absurd ((k1.trans hs).symm.trans hf) hx) fun _ => ?_
    exact ⟨k1.trans hs, k2.trans hc, j, rfl, rfl⟩
  | zero =>
    obtain ⟨h1, h2⟩ := oksThen_zero (.fail m pins text) d
    obtain ⟨h3, h4⟩ := oksThen_zero (.never m) d
    obtain ⟨k1, k2⟩ := deliver_session_codes ((encodeFrame s.pins v).1.take m) s
    simp only [sendFrame, ht, h1, h2, State.setTransport_transport, h3, h4, State.setTransport_pins,
      deliver_setTransport]
    refine unlessFaulted_both rfl (fun hf => absurd ((k1.trans hs).symm.trans hf) hx) fun _ _ => ?_
    refine ⟨(deliver ((encodeFrame s.pins v).1.take m) s).pins, ?_⟩
    simp [State.setTransport, State.setStuck, State.logEvents, State.setPins, State.setSession, State.returnCode, k1,
      k2, hs, hc]

theorem Setup.apply_awaitSilence (y : Setup) (s s' : State) (h : AwaitSilence m pins text d x cs s s') :
    AwaitSilence m pins text d x cs (y.apply s) (y.apply s') := by
  obtain ⟨hs, hc, j, ht, rfl⟩ := h
  cases y <;> exact ⟨hs, hc, j, ht, rfl⟩
end

theorem partsOf_setTransport (i : Instr) (s : State) (d : Draws Answer) :
    partsOf (s.setTransport d) i = partsOf s i ∧ callerError (s.setTransport d) i = callerError s i := by
  cases i <;> exact ⟨rfl, rfl⟩

/-- Settles O59: the two runs are alike up to the transmission whose answers differ, and from there by what the
failure's answer brings. -/
theorem silentTransmissionLeavesWhatAFailedOneDoes : Obligations.SilentTransmissionLeavesWhatAFailedOneDoes := by
  intro i k m pins text d s t hs h ht
  have key := runParts_both Setup.apply_awaitSilence (sendFrame_awaitSilence hs) (partsOf s i)
    (s.setTransport (Draws.oksThen k (.fail m pins text) d)) (s.setTransport (Draws.oksThen k (.never m) d))
    ⟨rfl, rfl, k, rfl, rfl⟩
  obtain ⟨hp, hc⟩ := partsOf_setTransport i s (Draws.oksThen k (.fail m pins text) d)
  obtain ⟨hp', hc'⟩ := partsOf_setTransport i s (Draws.oksThen k (.never m) d)
  change exec i (s.setTransport (Draws.oksThen k (.fail m pins text) d)) = .next t at h
  change ∃ p, exec i (s.setTransport (Draws.oksThen k (.never m) d)) = _
  obtain ⟨hl, ⟨-, rfl⟩ | ⟨ha, ⟨c, -, rfl⟩ | ⟨hn, ⟨u, hu, rfl⟩ | hu⟩⟩⟩ := exec_next h
  · exact absurd ht hs
  · exact absurd ht hs
  · rw [hp] at hu
    rw [hu] at key
    obtain ⟨s', -, hus, -⟩ := key.of_go
    exact absurd ht (sessionAfter_ne_failed i (hus ▸ hs))
  · rw [hp] at hu
    rw [hu] at key
    obtain ⟨t', ht', hE⟩ := key.of_ended
    obtain ⟨p, rfl⟩ := hE ht
    refine ⟨p, ?_⟩
    rw [exec_admitted (s := s.setTransport (Draws.oksThen k (.never m) d)) hl ha, bodyOf, hc', ← hc, hn, hp', ht']
    rfl

/-! The backlight bits. -/

/-- Two bytes that agree on the six lower pins. -/
def SameLow (p p' : Byte) : Prop := p' &&& 0x3F = p &&& 0x3F

theorem SameLow.map {f : Byte → Byte} (hf : ∀ p, f p &&& 0x3F = f (p &&& 0x3F) &&& 0x3F) {p p' : Byte}
    (h : SameLow p p') : SameLow (f p) (f p') := by
  rw [SameLow, hf p', hf p, h]

theorem SameLow.bits {p p' : Byte} (h : SameLow p p') :
    p'[0] = p[0] ∧ p'[2] = p[2] ∧ p'[3] = p[3] ∧ p'[4] = p[4] ∧ p'[5] = p[5] := by
  have hbit : ∀ i, (p' &&& 0x3F).getLsbD i = (p &&& 0x3F).getLsbD i := fun i => by rw [h]
  refine ⟨?_, ?_, ?_, ?_, ?_⟩
  · simpa using hbit 0
  · simpa using hbit 2
  · simpa using hbit 3
  · simpa using hbit 4
  · simpa using hbit 5

section
variable {p p' : Byte} (h : SameLow p p')
include h

theorem sameLow_srclkLow : SameLow (srclkLow p) (srclkLow p') := h.map (by decide)

theorem sameLow_srclkHigh : SameLow (srclkHigh p) (srclkHigh p') := h.map (by decide)

theorem sameLow_rclkLow : SameLow (rclkLow p) (rclkLow p') := h.map (by decide)

theorem sameLow_rclkHigh : SameLow (rclkHigh p) (rclkHigh p') := h.map (by decide)

theorem sameLow_withSer (d : Bool) : SameLow (withSer p d) (withSer p' d) :=
  h.map (f := (withSer · d)) (by revert d; decide)

theorem sameLow_withClrN (level : Bit) : SameLow (withClrN p level) (withClrN p' level) :=
  h.map (f := (withClrN · level)) (by revert level; decide)

theorem sameLow_withOeN (level : Bit) : SameLow (withOeN p level) (withOeN p' level) :=
  h.map (f := (withOeN · level)) (by revert level; decide)

theorem sameLow_withBacklight (on : Bit) : SameLow (withBacklight p on) (withBacklight p' on) :=
  h.map (f := (withBacklight · on)) (by revert on; decide)

end

theorem clockBits_low (ds : List Bool) (p p' : Byte) (h : SameLow p p') :
    List.Forall₂ SameLow (clockBits p ds).1 (clockBits p' ds).1 ∧ SameLow (clockBits p ds).2 (clockBits p' ds).2 := by
  induction ds generalizing p p' with
  | nil => exact ⟨.nil, h⟩
  | cons d ds ih =>
    have h1 : SameLow (srclkLow p) (srclkLow p') := sameLow_srclkLow h
    have h2 : SameLow (withSer (srclkLow p) d) (withSer (srclkLow p') d) :=
      sameLow_withSer h1 d
    have h3 : SameLow (srclkHigh (withSer (srclkLow p) d)) (srclkHigh (withSer (srclkLow p') d)) :=
      sameLow_srclkHigh h2
    obtain ⟨hb, hp⟩ := ih _ _ h3
    exact ⟨.cons h1 (.cons h2 (.cons h3 (.cons h3 hb))), hp⟩

/-- The bytes of a frame from pins that agree on the lower pins. -/
theorem encodeFrame_low {w : Nat} (v : BitVec w) (p p' : Byte) (h : SameLow p p') :
    List.Forall₂ SameLow (encodeFrame p v).1 (encodeFrame p' v).1 ∧
      SameLow (encodeFrame p v).2 (encodeFrame p' v).2 := by
  have h0 : SameLow (rclkLow p) (rclkLow p') := sameLow_rclkLow h
  obtain ⟨hb, hp⟩ := clockBits_low (bitsDown v w) _ _ h0
  have h1 : SameLow (encodeFrame p v).2 (encodeFrame p' v).2 := sameLow_rclkHigh hp
  rw [encodeFrame_bytes, encodeFrame_bytes]
  exact ⟨List.rel_append (.cons h0 hb) (.cons h1 .nil), h1⟩

/-- The states alike to `s`: other backlight bits in PINS and in ADAPTER. -/
theorem alike_iff {s s' : State} :
    s.AlikeButBacklight s' ↔
      ∃ p a, SameLow s.pins p ∧ SameLow s.adapter a ∧ s' = (s.setPins p).setChain a s.sr s.q := by
  constructor
  · rintro ⟨h, hp, ha⟩
    exact ⟨s'.pins, s'.adapter, hp, ha, h⟩
  · rintro ⟨p, a, hp, ha, rfl⟩
    exact ⟨rfl, hp, ha⟩

/-- The LCD side's step looks at no pin. -/
theorem lcdStep_setPins (v0 v1 : Option Word) (p : Byte) (s : State) :
    lcdStep v0 v1 (s.setPins p) = (lcdStep v0 v1 s).setPins p := by
  match v0, v1 with
  | none, none => rfl
  | some _, none => rfl
  | none, some c => rfl
  | some x, some c =>
    simp only [lcdStep]
    cases contended c <;> simp only [lcdEdge, if_true, if_false, Bool.false_eq_true] <;>
      (split <;> (try split) <;> (try split) <;> rfl)

/-- R79: no byte's effect on the stages or on the LCD side reaches through the backlight bits. -/
theorem applyByte_alike {b b' : Byte} (hb : SameLow b b') {s s' : State} (h : s.AlikeButBacklight s') :
    (applyByte b s).AlikeButBacklight (applyByte b' s') := by
  obtain ⟨p, a, hp, ha, rfl⟩ := alike_iff.mp h
  obtain ⟨b0, b2, b3, b4, b5⟩ := hb.bits
  obtain ⟨-, a2, a3, -, a5⟩ := ha.bits
  have hsr : nextSr a b' s.sr = nextSr s.adapter b s.sr := by
    rw [nextSr_congr b0 b3 b4, nextSr, nextSr, a3]
  have hq : nextQ a b' s.sr s.q = nextQ s.adapter b s.sr s.q := by
    rw [nextQ_congr b2 b4, nextQ, nextQ, a2]
  have hv : viewOf a s.q = s.view := viewOf_congr a5 s.q
  refine alike_iff.mpr ⟨p, b', ?_, ?_, ?_⟩
  · rw [applyByte, lcdStep_pins]
    exact hp
  · rw [applyByte_adapter]
    exact hb
  · simp only [applyByte, State.setChain_adapter, State.setChain_sr, State.setChain_q, State.setChain_view, hsr, hq, hv,
      viewOf_congr b5, setChain_setChain, lcdStep_setChain, lcdStep_setPins]
    rfl

theorem alike_faults {s s' : State} (h : s.AlikeButBacklight s') : s'.faults = s.faults := by
  rw [h.1]

theorem deliver_alike {bs bs' : List Byte} (hb : List.Forall₂ SameLow bs bs') {s s' : State}
    (h : s.AlikeButBacklight s') : (deliver bs s).AlikeButBacklight (deliver bs' s') := by
  induction hb generalizing s s' with
  | nil => exact h
  | cons h1 _ ih =>
    have ha := applyByte_alike h1 h
    rw [deliver_cons, deliver_cons, alike_faults ha]
    split
    · exact ih ha
    · exact ha

/-- One transmission from two alike states has the same answer and ends in the same way. -/
theorem sendFrame_alike {w : Nat} (v : BitVec w) {s s' : State} (h : s.AlikeButBacklight s') :
    (sendFrame v s).Both State.AlikeButBacklight State.AlikeButBacklight (sendFrame v s') := by
  obtain ⟨p, a, hp, ha, rfl⟩ := alike_iff.mp h
  obtain ⟨hbs, hpins⟩ := encodeFrame_low v s.pins p hp
  have hd : ∀ bs bs', List.Forall₂ SameLow bs bs' → (deliver bs (s.setTransport s.transport.tail)).AlikeButBacklight
      (deliver bs' (((s.setPins p).setChain a s.sr s.q).setTransport s.transport.tail)) := fun bs bs' hb =>
    deliver_alike hb (alike_iff.mpr ⟨p, a, hp, ha, rfl⟩)
  simp only [sendFrame, State.setChain_transport, State.setPins_transport, State.setChain_pins, State.setPins_pins,
    encodeFrame_length]
  cases s.transport.head with
  | ok =>
    have hk := hd _ _ hbs
    refine unlessFaulted_both (alike_faults hk) hk fun _ => ?_
    obtain ⟨p', a', -, ha', e⟩ := alike_iff.mp hk
    rw [e]
    exact alike_iff.mpr ⟨_, a', hpins, ha', rfl⟩
  | fail m x text =>
    have hk := hd _ _ (List.forall₂_take m hbs)
    refine unlessFaulted_both (alike_faults hk) hk fun _ => ?_
    obtain ⟨p', a', -, ha', e⟩ := alike_iff.mp hk
    rw [e]
    exact alike_iff.mpr ⟨x, a', rfl, ha', rfl⟩
  | never m =>
    have hk := hd _ _ (List.forall₂_take m hbs)
    refine unlessFaulted_both (alike_faults hk) hk fun _ => ?_
    obtain ⟨p', a', hp', ha', e⟩ := alike_iff.mp hk
    rw [e]
    exact alike_iff.mpr ⟨p', a', hp', ha', rfl⟩

theorem Setup.apply_alike (x : Setup) (s s' : State) (h : s.AlikeButBacklight s') :
    (x.apply s).AlikeButBacklight (x.apply s') := by
  obtain ⟨p, a, hp, ha, rfl⟩ := alike_iff.mp h
  cases x with
  | clear level => exact alike_iff.mpr ⟨_, a, sameLow_withClrN hp level, ha, rfl⟩
  | outputs level => exact alike_iff.mpr ⟨_, a, sameLow_withOeN hp level, ha, rfl⟩
  | light on => exact alike_iff.mpr ⟨_, a, sameLow_withBacklight hp on, ha, rfl⟩
  | wait | entry | display | shift | function => exact alike_iff.mpr ⟨p, a, hp, ha, rfl⟩

/-- Two outcomes that are the same but for the backlight bits. -/
def OutcomesAlike : Host.Outcome State Fault Refusal → Host.Outcome State Fault Refusal → Prop
  | .next t, o => ∃ t', o = .next t' ∧ t.AlikeButBacklight t'
  | .fault f, o => o = .fault f
  | .refused r, o => o = .refused r

theorem whenLive_alike {s s' : State} {k k' : Host.Outcome State Fault Refusal} (h : s.AlikeButBacklight s')
    (hk : OutcomesAlike k k') : OutcomesAlike (whenLive s k) (whenLive s' k') := by
  obtain ⟨p, a, -, -, rfl⟩ := alike_iff.mp h
  unfold whenLive
  dsimp only [State.setChain_faults, State.setPins_faults, State.setChain_refused, State.setPins_refused,
    State.setChain_stuck, State.setPins_stuck]
  split
  · rfl
  · rfl
  · rfl
  · exact hk

theorem bodyOf_alike (i : Instr) {s s' : State} (h : s.AlikeButBacklight s') :
    (bodyOf i s).Both State.AlikeButBacklight State.AlikeButBacklight (bodyOf i s') := by
  have hparts : partsOf s' i = partsOf s i ∧ callerError s' i = callerError s i := by
    obtain ⟨p, a, -, -, rfl⟩ := alike_iff.mp h
    cases i <;> exact ⟨rfl, rfl⟩
  rw [bodyOf, bodyOf, hparts.1, hparts.2]
  split
  · obtain ⟨p, a, hp, ha, rfl⟩ := alike_iff.mp h
    exact alike_iff.mpr ⟨p, a, hp, ha, rfl⟩
  · refine (runParts_both Setup.apply_alike (fun v t t' ht => sendFrame_alike v ht) _ s s' h).andThen fun t t' ht => ?_
    obtain ⟨p, a, hp, ha, rfl⟩ := alike_iff.mp ht
    exact alike_iff.mpr ⟨p, a, hp, ha, rfl⟩

theorem exec_alike (i : Instr) {s s' : State} (h : s.AlikeButBacklight s') : OutcomesAlike (exec i s) (exec i s') := by
  rw [exec_eq_operate, exec_eq_operate]
  refine whenLive_alike h ?_
  have hs : s'.session = s.session := by rw [h.1]
  rw [hs]
  split
  · have key := bodyOf_alike i h
    cases hb : bodyOf i s with
    | go t =>
      rw [hb] at key
      obtain ⟨t', hb', ht⟩ := key.of_go
      obtain ⟨p, a, hp, ha, rfl⟩ := alike_iff.mp ht
      exact ⟨_, congrArg Run.outcome hb', alike_iff.mpr ⟨p, a, hp, ha, rfl⟩⟩
    | ended t =>
      rw [hb] at key
      obtain ⟨t', hb', ht⟩ := key.of_ended
      exact ⟨t', congrArg Run.outcome hb', ht⟩
  · obtain ⟨p, a, hp, ha, rfl⟩ := alike_iff.mp h
    exact ⟨_, rfl, alike_iff.mpr ⟨p, a, hp, ha, rfl⟩⟩

theorem takeIssue_alike (issue : Issue) {s s' : State} (h : s.AlikeButBacklight s') :
    OutcomesAlike (takeIssue issue s) (takeIssue issue s') := by
  obtain ⟨p, a, hp, ha, rfl⟩ := alike_iff.mp h
  cases issue with
  | openAdapter =>
    refine ⟨_, rfl, ?_⟩
    rw [refuseSecondSession_eq, refuseSecondSession_eq]
    have hse : ((s.setPins p).setChain a s.sr s.q).session = s.session := rfl
    by_cases hs : s.session = .ended
    · rw [if_pos hs, if_pos (hse.trans hs)]
      exact h
    · rw [if_neg hs, if_neg (hse ▸ hs)]
      exact alike_iff.mpr ⟨p, a, hp, ha, rfl⟩
  | operation request tooEarly =>
    unfold takeIssue takeOperation
    dsimp only
    split
    · exact ⟨_, rfl, alike_iff.mpr ⟨p, a, hp, ha, rfl⟩⟩
    · split
      · exact exec_alike _ h
      · exact ⟨_, rfl, alike_iff.mpr ⟨p, a, hp, ha, rfl⟩⟩

theorem step_alike {s s' : State} (h : s.AlikeButBacklight s') : OutcomesAlike (step s) (step s') := by
  refine whenLive_alike h ?_
  obtain ⟨p, a, hp, ha, rfl⟩ := alike_iff.mp h
  unfold takeNext
  dsimp only [State.setChain_pending, State.setPins_pending]
  split
  · exact ⟨_, rfl, h⟩
  · exact takeIssue_alike _ (alike_iff.mpr ⟨p, a, hp, ha, rfl⟩)

/-- Settles O53: a byte's effect on the chain and on the LCD does not look at the backlight bits, and no part of an
operation does more with them than drive them. -/
theorem backlightDoesNotReachTheLcd : Obligations.BacklightDoesNotReachTheLcd := by
  intro s s' h
  have hstep := step_alike h
  refine ⟨fun i t ht => ?_, fun t ht => ?_, fun f hf => ?_, fun r hr => ?_⟩
  · have key := exec_alike i h
    rw [ht] at key
    exact key
  · rw [ht] at hstep
    exact hstep
  · rw [hf] at hstep
    exact hstep
  · rw [hr] at hstep
    exact hstep

end Sys2Proof.Machine
end

section
/-! Operations made of bus writes over ready inputs (spec/41_lcd_write_sequencer.md R85, R94, R98 to R105;
spec/43_lcd_command_state_machine.md R118 to R127). -/

namespace Sys2Proof.Machine

/-- R94: bus writes over ready inputs, one after the other. -/
theorem runWrites_ready (dp : DataHiPos) (ws : List (Bit × Byte)) (s : State) (hf : s.faults = []) (hr : s.LcdReady)
    (hdp : s.params.dataHi = dp) (hd : dp.distinct = true) (ht : s.transport.oks (3 * ws.length) = true) :
    runParts (writesParts dp ws) s = .go (s.afterWrites ws) ∧ (s.afterWrites ws).LcdReady := by
  induction ws generalizing s with
  | nil => exact ⟨rfl, hr⟩
  | cons x ws ih =>
    obtain ⟨rs, b⟩ := x
    rw [List.length_cons, Nat.mul_add, Nat.mul_one, Nat.add_comm, oks_add, Bool.and_eq_true] at ht
    obtain ⟨hgo, hready⟩ := busCycle_ready rs b s hf hr (hdp ▸ hd) ht.1
    obtain ⟨kf, -, kp, -, -, -, -, -, -, kt⟩ := afterWrites_keeps [(rs, b)] s
    rw [← busCycle_andThen dp rs b ws s hdp, hgo, andThen_go, ← List.singleton_append, afterWrites_append]
    exact ih _ (kf.trans hf) hready (kp ▸ hdp) (kt ▸ ht.2)

/-- An instruction that is bus writes alone. -/
theorem exec_writes_ready {i : Instr} {s : State} {ws : List (Bit × Byte)} (hl : s.Live) (ha : s.session ∈ admittedIn i)
    (hr : s.LcdReady) (hd : s.params.dataHi.distinct = true) (ht : s.transport.oks (3 * ws.length) = true)
    (hc : callerError s i = none) (hs : ∀ x, sessionAfter i x = x)
    (hp : partsOf s i = writesParts s.params.dataHi ws) :
    exec i s = .next ((s.afterWrites ws).returnCode .ok) ∧ (s.afterWrites ws).LcdReady := by
  obtain ⟨hgo, hready⟩ := runWrites_ready _ ws s hl.1 hr rfl hd ht
  rw [exec_plain hl ha hc hs, hp, hgo]
  exact ⟨rfl, hready⟩

/-- Settles O21: BUS_WRITE is its one clean write. -/
theorem busWriteLatchesItsTransfer : Obligations.BusWriteLatchesItsTransfer := fun rs b _ hl ha hr hd ht =>
  exec_writes_ready (ws := [(rs, b)]) hl ha hr hd ht rfl (fun _ => rfl) rfl

/-- R54, R98 to R105: the RS line and the byte of each transfer word that has a class, and that its RW line is low; a
check of the 1024 transfer words. -/
theorem lcdWord_lines_all :
    ∀ w : BitVec 10, (match decodeLcd w with
      | .ok i => busWritesOf State.reset i == [(w.extractLsb' 9 1, w.extractLsb' 0 8)] &&
          w.extractLsb' 9 1 ++ (0 : Bit) ++ w.extractLsb' 0 8 == w
      | .error _ => true) = true := by
  decide

theorem lcdWord_lines {i : Instr} {w : BitVec 10} (h : encode i = .lcd w) (s : State) :
    busWritesOf s i = [(w.extractLsb' 9 1, w.extractLsb' 0 8)] ∧
      w.extractLsb' 9 1 ++ (0 : Bit) ++ w.extractLsb' 0 8 = w := by
  have key := lcdWord_lines_all w
  rw [decodeLcd_encode i w h] at key
  simp only [Bool.and_eq_true, beq_iff_eq] at key
  refine ⟨Eq.trans ?_ key.1, key.2⟩
  cases i with
  | lcdClearDisplay | lcdEntryModeSet | lcdDisplayControl | lcdCursorDisplayShift | lcdFunctionSet |
    lcdSetDdramAddress | lcdWriteData | lcdReturnHome | lcdSetCgramAddress => rfl
  | _ => cases h

/-- An LCD instruction is one bus write, admitted as BUS_WRITE is (assumption log 6). -/
theorem lcdInstr_parts {i : Instr} {w : BitVec 10} (h : encode i = .lcd w) (s : State) :
    rowOf i = .bus ∧ callerError s i = none ∧ (∀ x, sessionAfter i x = x) ∧
      partsOf s i = writesParts s.params.dataHi [(w.extractLsb' 9 1, w.extractLsb' 0 8)] := by
  have hw := (lcdWord_lines h s).1
  have hp : partsOf s i = writesParts s.params.dataHi (busWritesOf s i) := by
    cases i with
    | lcdClearDisplay | lcdEntryModeSet | lcdDisplayControl | lcdCursorDisplayShift | lcdFunctionSet |
      lcdSetDdramAddress | lcdWriteData | lcdReturnHome | lcdSetCgramAddress => rfl
    | _ => cases h
  rw [hw] at hp
  cases i with
  | lcdClearDisplay | lcdEntryModeSet | lcdDisplayControl | lcdCursorDisplayShift | lcdFunctionSet |
    lcdSetDdramAddress | lcdWriteData | lcdReturnHome | lcdSetCgramAddress => exact ⟨rfl, rfl, fun _ => rfl, hp⟩
  | _ => cases h

/-- Settles O22: the word's bus write latches its RS and its byte, and these with RW low are the word. -/
theorem lcdWordsLatchTheirOwnClass : Obligations.LcdWordsLatchTheirOwnClass := by
  intro i w s h
  obtain ⟨hrow, hc, hs, hp⟩ := lcdInstr_parts h s
  constructor
  · rw [exec_eq_operate, exec_eq_operate, hrow]
    refine operate_congr ?_
    rw [bodyOf_plain hc hs, bodyOf_plain (i := .busWrite _ _) rfl fun _ => rfl, hp]
    rfl
  · intro hl ha hr hd ht
    refine ⟨_, .transfer (w.extractLsb' 9 1) 0 (w.extractLsb' 0 8),
      (exec_writes_ready (ws := [_]) hl ha hr hd ht hc hs hp).1, ?_, ?_, ?_⟩
    · simp [State.afterWrites]
    · simp [State.afterWrites, lcdEvents]
    · have hw := (lcdWord_lines h s).2
      rw [Event.lcdInstr, hw, decodeLcd_encode i w h]

/-- R118: the transmissions of INIT, three for each of its writes. -/
theorem init_sends (e : Bit) (s : State) : 3 * (busWritesOf s (.init e)).length = if e = 1 then 12 else 9 := by
  by_cases he : e = 1 <;> simp only [busWritesOf, he, if_true, if_false] <;> rfl

/-- Settles O23: INIT's writes and its transition. -/
theorem initSendsItsCommands : Obligations.InitSendsItsCommands := by
  intro e s hl ha hr hd ht
  obtain ⟨hgo, -⟩ := runWrites_ready _ (busWritesOf s (.init e)) s hl.1 hr rfl hd (init_sends e s ▸ ht)
  rw [exec_admitted hl ha, bodyOf]
  show ((runParts (writesParts s.params.dataHi (busWritesOf s (.init e))) s).andThen _).outcome = _
  rw [hgo]
  obtain ⟨-, -, -, -, kc, -⟩ := afterWrites_keeps (busWritesOf s (.init e)) s
  rw [← kc]
  rfl

/-- A SET_ operation over ready inputs: its register and then its one clean write. -/
theorem exec_setThenWrite_ready {i : Instr} {x : Setup} {b : Byte} {s : State} (hl : s.Live)
    (ha : s.session ∈ admittedIn i) (hr : (x.apply s).LcdReady) (hd : s.params.dataHi.distinct = true)
    (ht : (x.apply s).transport.oks 3 = true) (hx : (x.apply s).params = s.params) (hc : callerError s i = none)
    (hs : ∀ y, sessionAfter i y = y) (hp : partsOf s i = .setup x :: writesParts s.params.dataHi [(0, b)]) :
    exec i s = .next (((x.apply s).afterWrites [(0, b)]).returnCode .ok) := by
  obtain ⟨hgo, -⟩ := runWrites_ready s.params.dataHi [(0, b)] (x.apply s) ((x.apply_faults s).trans hl.1) hr
    (congrArg Params.dataHi hx) hd ht
  rw [exec_plain hl ha hc hs, hp, runParts_setup, hgo]
  rfl

/-- Settles O24: CLEAR_DISPLAY is one clean write, and each SET_ operation one after its register took the flags. -/
theorem registerCommandsSendOneWrite : Obligations.RegisterCommandsSendOneWrite := by
  intro s hl ha hr hd ht
  have hadm : s.session ∈ [.active] := ha ▸ List.mem_singleton_self _
  refine ⟨?_, fun id d => ?_, fun d c b => ?_, fun sc rl => ?_, fun dl n f => ?_⟩
  · exact (exec_writes_ready (i := .clearDisplay) (ws := [(0, clearCmd)]) hl hadm hr hd ht rfl (fun _ => rfl) rfl).1
  · exact exec_setThenWrite_ready (x := .entry id d) hl hadm hr hd ht rfl rfl (fun _ => rfl) rfl
  · exact exec_setThenWrite_ready (x := .display d c b) hl hadm hr hd ht rfl rfl (fun _ => rfl) rfl
  · exact exec_setThenWrite_ready (x := .shift sc rl) hl hadm hr hd ht rfl rfl (fun _ => rfl) rfl
  · exact exec_setThenWrite_ready (x := .function dl n f) hl hadm hr hd ht rfl rfl (fun _ => rfl) rfl

/-- Settles O25: the writes before the display register, the flag D, and the write of the display register. -/
theorem writeTextSendsItsBytes : Obligations.WriteTextSendsItsBytes := by
  intro line text s hl ha hr hd hline hlen sent ht
  have hc : callerError s (.writeText line text) = none := by
    rw [callerError_writeText, if_neg fun h => hline.elim h.1 h.2,
      if_neg fun h => hlen.elim (fun hx => absurd h.1 (Nat.not_lt.mpr hx)) fun hx => hx h.2]
  have hsent : sentText s.params.textPolicy text = sent := rfl
  let ws : List (Bit × Byte) := (0, if line = 1 then line1AddrCmd else line2AddrCmd) :: sent.map fun ch => (1, ch)
  have hwlen : 3 * (sent.length + 2) = 3 * ws.length + 3 := by simp [ws]; omega
  rw [hwlen, oks_add, Bool.and_eq_true] at ht
  obtain ⟨h1, r1⟩ := runWrites_ready s.params.dataHi ws s hl.1 hr rfl hd ht.1
  obtain ⟨kf, -, kp, -, kc, -, kd, -, -, kt⟩ := afterWrites_keeps ws s
  let u := (Setup.display .set .keep .keep).apply (s.afterWrites ws)
  obtain ⟨h2, -⟩ := runWrites_ready s.params.dataHi [(0, displayOn s.regDisplay)] u (kf.trans hl.1) r1
    (congrArg Params.dataHi kp) hd (kt ▸ ht.2)
  rw [exec_plain hl (ha ▸ List.mem_singleton_self _) hc fun _ => rfl, partsOf_writeText, hsent, runParts_append, h1,
    andThen_go, runParts_setup, h2]
  show Host.Outcome.next _ = Host.Outcome.next { s.afterWrites (ws ++ [(0, displayOn s.regDisplay)]) with
    regDisplay := displayOn s.regDisplay, codes := s.codes ++ [ReturnCode.ok] }
  rw [afterWrites_append, ← kc, ← kd, ← displayWith_set_keep_keep]
  rfl

end Sys2Proof.Machine
end

section
/-! Frames that are answered, from a cache that is what the adapter drives or is still 0x00 (spec/40_shift_loader.md
R72, R73; spec/42_side_channels.md R106 to R112; spec/43_lcd_command_state_machine.md R116). -/

namespace Sys2Proof.Machine

/-- R80: an 8-bit frame moves the lower register up. -/
theorem shiftLeft_or_byte (sr : Word) (v : Byte) : (sr <<< 8) ||| v.setWidth 16 = sr.extractLsb' 0 8 ++ v := by
  apply BitVec.eq_of_getLsbD_eq
  intro i hi
  rw [BitVec.getLsbD_or, BitVec.getLsbD_shiftLeft, BitVec.getLsbD_setWidth, BitVec.getLsbD_append]
  by_cases h : i < 8
  · simp [h, hi]
  · have h8 : i - 8 < 8 := by omega
    simp [h, hi, h8, BitVec.getLsbD_of_ge v i (Nat.le_of_not_lt h)]

/-- Settles O15: one frame over a cache that is what the adapter drives. -/
theorem shiftOutEightLoadsAndLatches : Obligations.ShiftOutEightLoadsAndLatches := by
  intro v s hl ha hs ht hu next lcd
  have hn : stageAfter s.pins (bitsDown v 8) s.sr = next := by rw [stageAfter_byte, shiftLeft_or_byte]
  simp only [Draws.oks, Bool.and_true, beq_iff_eq] at ht
  rw [exec_plain hl ha rfl fun _ => rfl]
  show (runParts [.send v] s).outcome = _
  rw [runParts_single_send, sendFrame_synced (w := 7) v s hl.1 ht hs next hn hu]
  rfl

/-- Settles O16: the same with the wider word. -/
theorem shiftOutSixteenLoadsAndLatches : Obligations.ShiftOutSixteenLoadsAndLatches := by
  intro v s hl ha hs ht hu next lcd
  have hn : stageAfter s.pins (bitsDown v 16) s.sr = next := stageAfter_word s.pins v s.sr
  simp only [Draws.oks, Bool.and_true, beq_iff_eq] at ht
  rw [exec_plain hl ha rfl fun _ => rfl]
  show (runParts [.send v] s).outcome = _
  rw [runParts_single_send, sendFrame_synced (w := 15) v s hl.1 ht hs next hn hu]
  rfl

/-! Side-channel frames. -/

/-- The LCD side after a frame from the pins `p` that leaves `next` on the outputs: the step of byte 0 and the
latch's. -/
def lcdAfter (p : Byte) (next : Word) (s : State) : State :=
  lcdStep (viewOf p s.q) (viewOf p next) (lcdStep s.view (viewOf p s.q) s)

/-- R106: where an answered side-channel frame from the pins `p` leads. -/
def afterSide (p : Byte) (next : Word) (s : State) : State :=
  { s with
    pins := (p &&& 0xF2) ||| 0x0C, adapter := (p &&& 0xF2) ||| 0x0C, sr := next, q := next,
    pulse := (lcdAfter p next s).pulse, log := (lcdAfter p next s).log ++ [.tx 34 true],
    floats := (lcdAfter p next s).floats, transport := s.transport.tail }

theorem lcdAfter_uncontended {p : Byte} {next : Word} {s : State} (hu : s.Uncontended p next) :
    lcdAfter p next s =
      { s with
        pulse := (lcdAfter p next s).pulse, log := (lcdAfter p next s).log, floats := (lcdAfter p next s).floats } := by
  have h1 := lcdStep_uncontended s.view (viewOf p s.q) s (viewOf_uncontended (hu.imp id (·.1)))
  have h2 := lcdStep_uncontended (viewOf p s.q) (viewOf p next) (lcdStep s.view (viewOf p s.q) s)
    (viewOf_uncontended (hu.imp id (·.2)))
  rw [lcdAfter]
  generalize lcdStep s.view (viewOf p s.q) s = u at *
  generalize lcdStep (viewOf p s.q) (viewOf p next) u = t at *
  rw [h2, h1]

theorem stageAfter_sideWord (p : Byte) (sr : Word) :
    stageAfter p (bitsDown sideWord 8) sr = if p[4] then sr <<< 8 else 0 := by
  rw [stageAfter_byte]
  simp [sideWord]

theorem framePins_false (p : Byte) : framePins p false = (p &&& 0xF2) ||| 0x0C := by revert p; decide

/-- R106: a side-channel frame that is answered, where byte 0 raises no clock and nothing contends. -/
theorem sideFrame_ok {p : Byte} {next : Word} {s : State} (hf : s.faults = []) (ht : s.transport.head = .ok)
    (hclk : s.adapter[3] = true ∨ p[3] = false) (hn : (if p[4] then s.sr <<< 8 else 0) = next)
    (hu : s.Uncontended p next) : sideFrame (s.setPins p) = .go (afterSide p next s) := by
  have hst : stageAfter p (bitsDown sideWord 8) s.sr = next := (stageAfter_sideWord p s.sr).trans hn
  have h := sendFrame_ok sideWord (s.setPins p) hf ht hclk (hst.symm ▸ hu)
  rw [encodeFrame_length] at h
  rw [sideFrame, h]
  have hlcd := lcdAfter_uncontended hu
  simp only [afterFrame, State.setPins_pins, State.setTransport_sr, State.setPins_sr, hst, State.setTransport_q,
    State.setPins_q, encodeFrame_pins]
  have hmove : lcdStep (viewOf p s.q) (viewOf p next)
      (lcdStep (((s.setPins p).setTransport (s.setPins p).transport.tail).view) (viewOf p s.q)
        ((s.setPins p).setTransport (s.setPins p).transport.tail)) =
      ((lcdAfter p next s).setPins p).setTransport s.transport.tail := by
    simp only [lcdStep_setTransport, lcdStep_setPins]
    rfl
  rw [hmove, hlcd]
  have h0 : (sideWord).getLsbD 0 = false := rfl
  rw [h0, framePins_false]
  rfl

/-- R16, R67: from a synced cache byte 0 raises no clock, whatever pin the operation drives. -/
theorem synced_clock {s : State} {p : Byte} (hs : s.Synced) (hp : p[3] = s.pins[3]) :
    s.adapter[3] = true ∨ p[3] = false := by
  rcases hs with h | h
  · rw [h, hp]
    cases s.pins[3] <;> simp
  · rw [hp, h]
    exact .inr rfl

/-- The parts of a side-channel frame that is answered. -/
theorem runSide_ok {x : Setup} {p : Byte} {next : Word} {s : State} (hf : s.faults = [])
    (ht : s.transport.head = .ok) (hs : s.Synced) (hx : x.apply s = s.setPins p) (hp : p[3] = s.pins[3])
    (hn : (if p[4] then s.sr <<< 8 else 0) = next) (hu : s.Uncontended p next) :
    runParts (sideParts x) s = .go (afterSide p next s) := by
  rw [runParts_sideParts, hx, sideFrame_ok hf ht (synced_clock hs hp) hn hu]

/-- An instruction that is one side-channel frame. -/
theorem exec_side_ok {i : Instr} {x : Setup} {p : Byte} {next : Word} {s : State} (hl : s.Live)
    (ha : s.session ∈ admittedIn i) (hs : s.Synced) (ht : s.transport.oks 1 = true) (hc : callerError s i = none)
    (hse : ∀ y, sessionAfter i y = y) (hparts : partsOf s i = sideParts x) (hx : x.apply s = s.setPins p)
    (hp : p[3] = s.pins[3]) (hn : (if p[4] then s.sr <<< 8 else 0) = next) (hu : s.Uncontended p next) :
    exec i s = .next ((afterSide p next s).returnCode .ok) := by
  simp only [Draws.oks, Bool.and_true, beq_iff_eq] at ht
  rw [exec_plain hl ha hc hse, hparts, runSide_ok hl.1 ht hs hx hp hn hu]
  rfl

/-- R108 to R110: the pins as the operations drive them. -/
theorem drivenPins (p : Byte) (level : Bit) :
    withClrN p level = (p &&& 0xEF) ||| (if level = 1 then 0x10 else 0x00) ∧
    withOeN p level = (p &&& 0xDF) ||| (if level = 1 then 0x20 else 0x00) ∧
    withBacklight p level = (p &&& 0x3F) ||| (if level = 1 then 0xC0 else 0x00) := by
  revert p level; decide

/-- What driving one pin leaves of the others. -/
theorem drivenPins_bits (p : Byte) (level : Bit) :
    ((withClrN p level)[3] = p[3] ∧ (withClrN p level)[4] = decide (level = 1) ∧ (withClrN p level)[5] = p[5]) ∧
    ((withOeN p level)[3] = p[3] ∧ (withOeN p level)[4] = p[4] ∧ (withOeN p level)[5] = decide (level = 1)) ∧
    ((withBacklight p level)[3] = p[3] ∧ (withBacklight p level)[4] = p[4] ∧ (withBacklight p level)[5] = p[5]) := by
  revert p level; decide

/-- Settles O27: one side-channel frame from the pins with CLR_N driven. -/
theorem srClearDrivesClear : Obligations.SrClearDrivesClear := by
  intro level s hl ha hs ht p next hu lcd
  obtain ⟨⟨h3, h4, -⟩, -, -⟩ := drivenPins_bits s.pins level
  have hp : withClrN s.pins level = p := (drivenPins s.pins level).1
  rw [hp] at h3 h4
  exact exec_side_ok (x := .clear level) (next := next) hl ha hs ht rfl (fun _ => rfl) rfl (congrArg s.setPins hp) h3
    (by rw [h4]; simp only [decide_eq_true_eq]; rfl) hu

/-- Settles O28: the same with OE_N driven. -/
theorem srOeDrivesOutputEnable : Obligations.SrOeDrivesOutputEnable := by
  intro level s hl ha hs ht p next hu lcd
  obtain ⟨-, ⟨h3, h4, -⟩, -⟩ := drivenPins_bits s.pins level
  have hp : withOeN s.pins level = p := (drivenPins s.pins level).2.1
  rw [hp] at h3 h4
  exact exec_side_ok (x := .outputs level) (next := next) hl ha hs ht rfl (fun _ => rfl) rfl (congrArg s.setPins hp) h3
    (by rw [h4]) hu

/-- Settles O29: the same with the backlight bits driven. -/
theorem backlightDrivesBothBits : Obligations.BacklightDrivesBothBits := by
  intro on s hl ha hs ht p next hu lcd
  obtain ⟨-, -, ⟨h3, h4, -⟩⟩ := drivenPins_bits s.pins on
  have hp : withBacklight s.pins on = p := (drivenPins s.pins on).2.2
  rw [hp] at h3 h4
  exact exec_side_ok (x := .light on) (next := next) hl ha hs ht rfl (fun _ => rfl) rfl (congrArg s.setPins hp) h3
    (by rw [h4]) hu

end Sys2Proof.Machine
end

section
/-! Operations of several side-channel frames (spec/42_side_channels.md R107, R111, R112;
spec/43_lcd_command_state_machine.md R116, R117; spec/70_reset_and_hazards.md R155, R156). -/

namespace Sys2Proof.Machine

theorem afterSide_log (p : Byte) (next : Word) (s : State) :
    ∃ es, lcdEvents es = es ∧ (afterSide p next s).log = s.log ++ es ++ [.tx 34 true] := by
  obtain ⟨es, he, h⟩ := (lcdStep_log s.view (viewOf p s.q) s).trans
    (lcdStep_log (viewOf p s.q) (viewOf p next) (lcdStep s.view (viewOf p s.q) s))
  exact ⟨es, he, congrArg (· ++ [Event.tx 34 true]) h⟩

/-- Where the outputs stay driven or stay off, no float draw is taken. -/
theorem afterSide_floats {p : Byte} (next : Word) {s : State} (h : p[5] = s.adapter[5]) :
    (afterSide p next s).floats = s.floats := by
  have hsome : ∀ (q q' : Word), (viewOf p q).isSome = true ∨ (viewOf p q').isSome = false := fun q q' => by
    unfold viewOf
    split <;> simp
  show (lcdAfter p next s).floats = s.floats
  rw [lcdAfter, lcdStep_floats _ _ _ (hsome _ _), State.view, viewOf_congr h.symm, lcdStep_floats _ _ _ (hsome _ _)]

/-- R107: over driven outputs with E low before and after, the LCD sees nothing. -/
theorem afterSide_quiet {p : Byte} {next : Word} {s : State} (ha : s.adapter[5] = false) (hp : p[5] = false)
    (hq : eOf s.q = false) (hn : eOf next = false) : lcdAfter p next s = s := by
  have h1 : s.view = some s.q := by simp [State.view, viewOf, ha]
  have h2 : ∀ q, viewOf p q = some q := fun q => by simp [viewOf, hp]
  rw [lcdAfter, h1, h2, h2, lcdStep_low _ _ _ hq hq, lcdStep_low _ _ _ hq hn]

theorem afterSide_of_quiet {p : Byte} {next : Word} {s : State} (h : lcdAfter p next s = s) :
    (afterSide p next s).log = s.log ++ [.tx 34 true] ∧ (afterSide p next s).floats = s.floats ∧
      (afterSide p next s).pulse = s.pulse := by
  have hl : (lcdAfter p next s).log = s.log := congrArg State.log h
  exact ⟨congrArg (· ++ [Event.tx 34 true]) hl, (congrArg State.floats h :), (congrArg State.pulse h :)⟩

/-- The pins a side-channel frame leaves. -/
theorem sidePins_bits (p : Byte) :
    ((p &&& 0xF2) ||| 0x0C)[3] = true ∧ ((p &&& 0xF2) ||| 0x0C)[4] = p[4] ∧ ((p &&& 0xF2) ||| 0x0C)[5] = p[5] := by
  revert p; decide

/-- Settles O31: bit 2 of the stage is the E that the frame's latch brings. -/
theorem sideFrameCausesNoTransfer : Obligations.SideFrameCausesNoTransfer := by
  intro on s hl ha hr hsr ht
  obtain ⟨hsync, h4, h5, hq, hpulse⟩ := hr
  obtain ⟨-, -, k3, k4, k5⟩ := drivenPins_bits s.pins on
  have he : eOf (s.sr <<< 8) = false := by simpa [eOf] using hsr
  have hu : s.Uncontended (withBacklight s.pins on) (s.sr <<< 8) :=
    .inr ⟨by simp [contended, hq], by simp [contended, he]⟩
  have hquiet : lcdAfter (withBacklight s.pins on) (s.sr <<< 8) s = s :=
    afterSide_quiet (hsync ▸ h5) (k5.trans h5) hq he
  obtain ⟨-, p4, p5⟩ := sidePins_bits (withBacklight s.pins on)
  refine ⟨_, exec_side_ok (x := .light on) (next := s.sr <<< 8) hl ha (.inl hsync) ht rfl (fun _ => rfl) rfl rfl k3
    (by rw [k4, h4]; rfl) hu, ?_, ⟨rfl, p4.trans (k4.trans h4), p5.trans (k5.trans h5), he, ?_⟩, rfl⟩
  · show (lcdAfter _ _ s).log ++ _ = _
    rw [hquiet]
  · show (lcdAfter _ _ s).pulse = _
    rw [hquiet, hpulse]

/-- Two side-channel frames move both bytes of the stage out. -/
theorem moved_out (sr : Word) (c d : Bool) : (if d then (if c then sr <<< 8 else 0) <<< 8 else 0) = 0#16 := by
  have h : (sr <<< 8) <<< 8 = 0#16 := by
    rw [← BitVec.shiftLeft_add]
    apply BitVec.eq_of_getLsbD_eq
    intro i hi
    simp [hi]
  cases c <;> cases d <;> simp [h]

/-- The pins after the on-frame and the off-frame. -/
theorem onOff_pins (p : Byte) :
    (withBacklight ((withBacklight p 1 &&& 0xF2) ||| 0x0C) 0 &&& 0xF2) ||| 0x0C = (p &&& 0x32) ||| 0x0C := by
  revert p; decide

/-- Settles O30: the on-frame, the event Wait and the off-frame, whose stage has both bytes of the on-frame's moved
out. -/
theorem timedBacklightWaitsAndSwitchesOff : Obligations.TimedBacklightWaitsAndSwitchesOff := by
  constructor
  · intro s
    rw [exec_eq_operate, exec_eq_operate]
    exact operate_congr (by rw [bodyOf_plain rfl fun _ => rfl, bodyOf_plain rfl fun _ => rfl]; rfl)
  · intro seconds s hsec hl ha hs ht hu
    rw [oks_add s.transport 1 1, Bool.and_eq_true] at ht
    obtain ⟨t1, t2⟩ := ht
    have h1 : s.transport.head = .ok := by simpa [Draws.oks] using t1
    have h2 : s.transport.tail.head = .ok := by simpa [Draws.oks, Draws.skip] using t2
    let next : Word := if s.pins[4] then s.sr <<< 8 else 0
    -- the on-frame
    let p := withBacklight s.pins 1
    obtain ⟨-, -, k3, k4, k5⟩ := drivenPins_bits s.pins 1
    have hu1 : s.Uncontended p next := hu.imp (fun h => k5.trans h) id
    have hon : runParts (sideParts (.light 1)) s = .go (afterSide p next s) :=
      runSide_ok hl.1 h1 hs rfl k3 (by rw [k4]) hu1
    -- the off-frame
    let s1 := (afterSide p next s).logEvents [.wait seconds]
    let p' := withBacklight s1.pins 0
    obtain ⟨-, -, j3, j4, j5⟩ := drivenPins_bits s1.pins 0
    have hu2 : s1.Uncontended p' 0 :=
      hu1.imp (fun h => j5.trans ((sidePins_bits p).2.2.trans h)) fun h => ⟨h.2, rfl⟩
    have hoff : runParts (sideParts (.light 0)) s1 = .go (afterSide p' 0 s1) :=
      runSide_ok hl.1 h2 (.inl rfl) rfl j3 (moved_out s.sr s.pins[4] p'[4]) hu2
    have hparts : runParts (partsOf s (.backlightFor seconds)) s = .go (afterSide p' 0 s1) := by
      rw [partsOf_backlightFor, if_neg hsec, runParts_append, hon, andThen_go, runParts_setup]
      exact hoff
    have hexec : exec (.backlight 1) s = .next ((afterSide p next s).returnCode .ok) := by
      rw [exec_plain (i := .backlight 1) hl ha rfl fun _ => rfl]
      exact congrArg Run.outcome hon
    obtain ⟨es, he, hlog⟩ := afterSide_log p' 0 s1
    have hfloats : (afterSide p' 0 s1).floats = (afterSide p next s).floats := afterSide_floats 0 j5
    have hpins : (p' &&& 0xF2) ||| 0x0C = (s.pins &&& 0x32) ||| 0x0C := onOff_pins s.pins
    refine ⟨(afterSide p' 0 s1).returnCode .ok, (afterSide p next s).returnCode .ok, hexec, ?_, ?_, es, he, hlog⟩
    · rw [exec_plain hl ha rfl fun _ => rfl, hparts]
      rfl
    · have hon : ((afterSide p next s).returnCode .ok).floats = (afterSide p' 0 s1).floats := hfloats.symm
      rw [← hpins, hon]
      rfl

/-- R97: LCD events are no transmissions. -/
theorem txEvents_of_lcdEvents {es : List Event} (h : lcdEvents es = es) : txEvents es = [] := by
  refine List.filter_eq_nil_iff.mpr fun e he => ?_
  rw [← h] at he
  cases e <;> simp [lcdEvents] at he ⊢

theorem LcdLog.txEvents_eq {s t : State} (h : LcdLog s t) : txEvents t.log = txEvents s.log := by
  obtain ⟨es, he, h⟩ := h
  rw [h, txEvents, List.filter_append]
  exact (congrArg (_ ++ ·) (txEvents_of_lcdEvents he)).trans (List.append_nil _)

/-- R68, R71: a side-channel frame adds its one transmission. -/
theorem afterSide_txEvents (p : Byte) (next : Word) (s : State) :
    txEvents (afterSide p next s).log = txEvents s.log ++ [.tx 34 true] := by
  obtain ⟨es, he, h⟩ := afterSide_log p next s
  rw [h, txEvents, List.filter_append, List.filter_append]
  exact congrArg (· ++ [Event.tx 34 true]) ((congrArg (_ ++ ·) (txEvents_of_lcdEvents he)).trans (List.append_nil _))

/-! CONFIGURE. -/

/-- The three pins that CONFIGURE's frames are sent under. -/
theorem configurePins (p : Byte) :
    let p1 := withClrN p 0
    let p2 := withOeN ((p1 &&& 0xF2) ||| 0x0C) 0
    let p3 := withClrN ((p2 &&& 0xF2) ||| 0x0C) 1
    (p3 &&& 0xF2) ||| 0x0C = (p &&& 0xC2) ||| 0x1C ∧ p1[4] = false ∧ p2[4] = false ∧ p1[3] = p[3] ∧ p1[5] = p[5] ∧
      p2[3] = true ∧ p2[5] = false ∧ p3[3] = true ∧ p3[5] = false := by
  revert p; decide

theorem eOf_zero : eOf 0 = false := by decide

theorem contended_zero : contended 0 = false := by decide

/-- The state after CONFIGURE's three frames. -/
def configuredChain (s : State) : State :=
  let s1 := afterSide (withClrN s.pins 0) 0 s
  let s2 := afterSide (withOeN s1.pins 0) 0 s1
  afterSide (withClrN s2.pins 1) 0 s2

theorem moved_zero (c : Bool) : (if c then (0#16) <<< 8 else 0) = 0#16 := by cases c <;> rfl

theorem runConfigure_ok {s : State} (hf : s.faults = []) (hs : s.Synced) (ht : s.transport.oks 3 = true)
    (hu : s.Uncontended s.pins 0) : runParts (partsOf s .configure) s = .go (configuredChain s) := by
  simp only [Draws.oks, Bool.and_eq_true, beq_iff_eq, Bool.and_true] at ht
  obtain ⟨t1, t2, t3⟩ := ht
  obtain ⟨-, h41, h42, h31, h51, h32, -, h33, -⟩ := configurePins s.pins
  let s1 := afterSide (withClrN s.pins 0) 0 s
  let s2 := afterSide (withOeN s1.pins 0) 0 s1
  have r1 : runParts (sideParts (.clear 0)) s = .go s1 :=
    runSide_ok hf t1 hs rfl h31 (by rw [h41]; rfl) (hu.imp (fun h => h51.trans h) id)
  have r2 : runParts (sideParts (.outputs 0)) s1 = .go s2 :=
    runSide_ok hf t2 (.inl rfl) rfl (h32.trans (sidePins_bits _).1.symm)
      (if_neg (show ¬(withOeN s1.pins 0)[4] = true from Bool.eq_false_iff.mp h42))
      (.inr ⟨contended_zero, contended_zero⟩)
  have r3 : runParts (sideParts (.clear 1)) s2 = .go (configuredChain s) :=
    runSide_ok hf t3 (.inl rfl) rfl (h33.trans (sidePins_bits _).1.symm) (moved_zero _)
      (.inr ⟨contended_zero, contended_zero⟩)
  rw [partsOf_configure, runParts_append, runParts_append, r1, andThen_go, r2, andThen_go, r3]

theorem configuredChain_pins (s : State) : (configuredChain s).pins = (s.pins &&& 0xC2) ||| 0x1C :=
  (configurePins s.pins).1

theorem configuredChain_view (s : State) : (configuredChain s).view = some 0 := by
  have h5 : ((s.pins &&& 0xC2) ||| 0x1C)[5] = false := by generalize s.pins = p; revert p; decide
  show viewOf (configuredChain s).pins 0 = some 0
  rw [configuredChain_pins, viewOf, if_neg (by rw [h5]; decide)]

theorem configuredChain_txEvents (s : State) :
    txEvents (configuredChain s).log = txEvents s.log ++ [.tx 34 true, .tx 34 true, .tx 34 true] := by
  simp only [configuredChain, afterSide_txEvents, List.append_assoc]
  rfl

/-- A driven view of 0 with an agreeing pulse: the inputs are ready. -/
theorem configuredChain_ready {s : State} (h : (configuredChain s).PulseAgrees) :
    ((configuredChain s).setSession .configured).LcdReady := by
  have hp := configuredChain_pins s
  have hbits : ((s.pins &&& 0xC2) ||| 0x1C)[4] = true ∧ ((s.pins &&& 0xC2) ||| 0x1C)[5] = false := by
    generalize s.pins = p; revert p; decide
  refine ⟨rfl, ?_, ?_, eOf_zero, ?_⟩
  · show (configuredChain s).pins[4] = true
    simp only [hp]
    exact hbits.1
  · show (configuredChain s).pins[5] = false
    simp only [hp]
    exact hbits.2
  · rw [pulseAgrees_iff, configuredChain_view] at h
    exact h

/-- From driven idle inputs CONFIGURE's frames show the LCD nothing. -/
theorem configuredChain_quiet {s : State} (ha : s.adapter[5] = false) (hp : s.pins[5] = false) (hq : eOf s.q = false) :
    (configuredChain s).log = s.log ++ [.tx 34 true, .tx 34 true, .tx 34 true] ∧
      (configuredChain s).floats = s.floats ∧ (configuredChain s).pulse = s.pulse := by
  obtain ⟨-, -, -, -, h51, -, h52, -, h53⟩ := configurePins s.pins
  let s1 := afterSide (withClrN s.pins 0) 0 s
  let s2 := afterSide (withOeN s1.pins 0) 0 s1
  have q1 : lcdAfter (withClrN s.pins 0) 0 s = s := afterSide_quiet ha (h51.trans hp) hq eOf_zero
  have q2 : lcdAfter (withOeN s1.pins 0) 0 s1 = s1 :=
    afterSide_quiet ((sidePins_bits _).2.2.trans (h51.trans hp)) h52 eOf_zero eOf_zero
  have q3 : lcdAfter (withClrN s2.pins 1) 0 s2 = s2 :=
    afterSide_quiet ((sidePins_bits _).2.2.trans h52) h53 eOf_zero eOf_zero
  have f1 : s1.log = s.log ++ [.tx 34 true] ∧ s1.floats = s.floats ∧ s1.pulse = s.pulse := afterSide_of_quiet q1
  have f2 : s2.log = s1.log ++ [.tx 34 true] ∧ s2.floats = s1.floats ∧ s2.pulse = s1.pulse := afterSide_of_quiet q2
  obtain ⟨l3, g3, p3⟩ := afterSide_of_quiet q3
  refine ⟨?_, g3.trans (f2.2.1.trans f1.2.1), p3.trans (f2.2.2.trans f1.2.2)⟩
  rw [configuredChain, l3, f2.1, f1.1, List.append_assoc, List.append_assoc]
  rfl

/-- R116: CONFIGURE with its three frames answered. -/
theorem exec_configure_ok {s : State} (hl : s.Live) (hse : s.session = .uninitialized) (hs : s.Synced)
    (ht : s.transport.oks 3 = true) (hu : s.Uncontended s.pins 0) :
    exec .configure s = .next (((configuredChain s).setSession .configured).returnCode .ok) := by
  rw [exec_admitted hl (show s.session ∈ admittedIn .configure from hse ▸ List.mem_singleton_self _), bodyOf]
  show ((runParts (partsOf s .configure) s).andThen _).outcome = _
  rw [runConfigure_ok hl.1 hs ht hu]
  rfl

/-- Settles O33: three side-channel frames that each leave 0 on the chain. -/
theorem configureBringsUpTheChain : Obligations.ConfigureBringsUpTheChain := by
  intro s hl hse hs ht hu
  have hagree := runParts_pulseAgrees (partsOf s .configure) s
  rw [runConfigure_ok hl.1 hs ht hu] at hagree
  refine ⟨_, exec_configure_ok hl hse hs ht hu, ?_, configuredChain_txEvents s,
    fun h => configuredChain_ready (hagree h), fun h5 hp5 hq hp => ?_⟩
  · rw [← configuredChain_pins]
    rfl
  · obtain ⟨hlog, hfloats, hpulse⟩ := configuredChain_quiet h5 hp5 hq
    refine ⟨hlog, hfloats, configuredChain_ready ?_⟩
    rw [pulseAgrees_iff, configuredChain_view, hpulse, hp]
    rfl

/-- R97: what a chain of clean writes shows the LCD. -/
theorem lcdEvents_afterWrites (ws : List (Bit × Byte)) (s : State) :
    lcdEvents (s.afterWrites ws).log = lcdEvents s.log ++ ws.map fun x => .transfer x.1 0 x.2 := by
  induction ws generalizing s with
  | nil => simp [State.afterWrites]
  | cons x ws ih =>
    rw [State.afterWrites, ih]
    simp [lcdEvents]

/-- Clean writes leave a live state live. -/
theorem afterWrites_live (ws : List (Bit × Byte)) {s : State} (h : s.Live) : (s.afterWrites ws).Live := by
  induction ws generalizing s with
  | nil => exact h
  | cons x ws ih => exact ih h

/-- The cache of a session start has OE_N low. -/
theorem zero_outputs : (0x00 : Byte)[5] = false := by decide

/-- Outputs with E low contend nothing. -/
theorem contended_of_low {q : Word} (h : eOf q = false) : contended q = false := by simp [contended, h]

/-- Settles O52: CONFIGURE from a clean start shows the LCD nothing and leaves the inputs ready for INIT's clean
writes. -/
theorem bringUpLogsExactlyItsTransfers : Obligations.BringUpLogsExactlyItsTransfers := by
  intro p a0 sr q transport floats e hwf hclean ht
  have hlen : (if e = 1 then 15 else 12) = 3 + if e = 1 then 12 else 9 := by split <;> rfl
  rw [hlen, oks_add, Bool.and_eq_true] at ht
  let s := State.start p a0 sr q transport floats
  let u := ((configuredChain s).setSession .configured).returnCode .ok
  have hu : exec .configure s = .next u :=
    exec_configure_ok (start_live ..) rfl (.inr rfl) ht.1 (.inr ⟨contended_of_low hclean.2, contended_zero⟩)
  obtain ⟨hlog, -, hpulse⟩ := configuredChain_quiet (s := s) hclean.1 zero_outputs hclean.2
  have hidle : s.pulse = .idle := (startPulse_idle_iff a0 q).mpr hclean
  have hready : u.LcdReady := configuredChain_ready (by rw [pulseAgrees_iff, configuredChain_view, hpulse, hidle]; rfl)
  have hd : u.params.dataHi.distinct = true := by
    have h := hwf
    simp only [Params.wellFormed, Bool.and_eq_true] at h
    obtain ⟨⟨⟨⟨hd, -⟩, -⟩, -⟩, -⟩ := h
    exact hd
  let ws := busWritesOf u (.init e)
  obtain ⟨-, hready'⟩ := runWrites_ready _ ws u rfl hready rfl hd (init_sends e u ▸ ht.2)
  let t : State := { u.afterWrites ws with session := .active, codes := u.codes ++ [.ok] }
  refine ⟨u, t, hu, initSendsItsCommands e u ⟨rfl, rfl, rfl⟩ (List.mem_singleton_self _) hready hd ht.2, ?_, rfl,
    hready', rfl, ?_⟩
  · have h0 : lcdEvents u.log = [] := (congrArg lcdEvents hlog).trans rfl
    refine (lcdEvents_afterWrites ws u).trans ?_
    rw [h0]
    by_cases he : e = 1 <;> simp only [ws, busWritesOf, he, if_true, if_false] <;> rfl
  · obtain ⟨hf, hr, hst⟩ : t.Live := afterWrites_live ws (s := u) ⟨rfl, rfl, rfl⟩
    exact ⟨_, sessionEndLeavesThePins t ⟨hf, hr, hst⟩ (show Session.active ≠ .ended by decide), rfl, hr, hf, hst, rfl⟩

end Sys2Proof.Machine
end

section
/-! The delivered bytes of a frame, all or a first few of them, with or without contention (spec/40_shift_loader.md
section 5, spec/41_lcd_write_sequencer.md R96, spec/60_exceptions.md R134, R141). -/

namespace Sys2Proof.Machine

/-! Bytes one after the other. -/

/-- R141: a fault ends a transmission, so no byte behind it counts. -/
theorem deliver_append_of_faults {bs : List Byte} (cs : List Byte) {s : State} (h : (deliver bs s).faults ≠ [])
    (hf : s.faults = []) : deliver (bs ++ cs) s = deliver bs s := by
  induction bs generalizing s with
  | nil => exact absurd hf h
  | cons b bs ih =>
    rw [List.cons_append, deliver_cons, deliver_cons]
    split
    next hb => exact ih (by rwa [deliver_cons, if_pos hb] at h) hb
    next => rfl

/-- Where fewer bytes record a fault, more do the same. -/
theorem deliver_take_of_faults {bs : List Byte} {n m : Nat} {s : State} (hm : n ≤ m) (hf : s.faults = [])
    (h : (deliver (bs.take n) s).faults ≠ []) : deliver (bs.take m) s = deliver (bs.take n) s := by
  obtain ⟨cs, hcs⟩ := List.take_prefix_take_left (l := bs) hm
  rw [← hcs, deliver_append_of_faults cs h hf]

theorem deliver_single (b : Byte) (s : State) : deliver [b] s = applyByte b s := by
  rw [deliver_cons, deliver_nil, ite_self]

/-- Bytes that raise no latch edge, over an uncontended view, move the adapter and the shift stage only. -/
theorem deliver_of_quiet (bs : List Byte) (s : State) (hf : s.faults = [])
    (h : ∀ b ∈ bs, b[2] = false ∧ b[5] = s.adapter[5]) (hc : s.adapter[5] = true ∨ contended s.q = false) :
    ∃ a d, deliver bs s = s.setChain a d s.q := by
  induction bs generalizing s with
  | nil => exact ⟨s.adapter, s.sr, rfl⟩
  | cons b bs ih =>
    obtain ⟨hb, hbs⟩ := List.forall_mem_cons.mp h
    rw [deliver_quiet b bs s hf hb.2 (.inl hb.1) (hc.imp (fun h => hb.2.trans h) id)]
    exact ih _ hf (fun c hc => ⟨(hbs c hc).1, (hbs c hc).2.trans hb.2.symm⟩) (hc.imp (fun h => hb.2.trans h) id)

/-! The bytes of a frame. -/

/-- Byte 0 of a frame raises no latch edge; the outputs are enabled or not from there on. -/
theorem applyByte_first (p : Byte) (s : State) :
    applyByte (rclkLow p) s =
      (lcdStep s.view (viewOf p s.q) s).setChain (rclkLow p) (nextSr s.adapter (rclkLow p) s.sr) s.q := by
  obtain ⟨e2, -, -, e5⟩ := rclkLow_pins p
  have hq : nextQ s.adapter (rclkLow p) s.sr s.q = s.q := by simp [nextQ, e2]
  rw [applyByte, hq, lcdStep_setChain, viewOf_congr e5]

theorem applyByte_first_faults {p : Byte} {s : State} (hf : s.faults = []) (hc : p[5] = true ∨ contended s.q = false) :
    (applyByte (rclkLow p) s).faults = [] := by
  rw [applyByte_first]
  exact (lcdStep_faults_clear _ _ _ (viewOf_uncontended hc)).trans hf

theorem take_frame_cons {w m : Nat} (p : Byte) (v : BitVec w) :
    (encodeFrame p v).1.take (m + 1) =
      rclkLow p :: ((clockBits (rclkLow p) (bitsDown v w)).1 ++ [(encodeFrame p v).2]).take m := rfl

/-- R83: before its last byte a frame over an uncontended view shows the LCD the step of byte 0 alone. -/
theorem deliver_cut {w m : Nat} (p : Byte) (v : BitVec w) (s : State) (hf : s.faults = []) (hm : m + 1 ≤ 4 * w + 1)
    (hc : p[5] = true ∨ contended s.q = false) :
    ∃ a d, deliver ((encodeFrame p v).1.take (m + 1)) s = (lcdStep s.view (viewOf p s.q) s).setChain a d s.q := by
  have hbytes := take_frame_body p v hm
  have hf0 := applyByte_first_faults hf hc
  rw [take_frame_cons] at hbytes ⊢
  rw [deliver_cons, if_pos hf0]
  obtain ⟨-, -, -, e5⟩ := rclkLow_pins p
  have h5 : (applyByte (rclkLow p) s).adapter[5] = p[5] := by rw [applyByte_adapter]; exact e5
  obtain ⟨a, d, h⟩ := deliver_of_quiet _ (applyByte (rclkLow p) s) hf0
    (fun b hb => ⟨(hbytes b (List.mem_cons_of_mem _ hb)).1, (hbytes b (List.mem_cons_of_mem _ hb)).2.trans h5.symm⟩)
    (hc.imp (fun h => h5.trans h) fun h => by rw [applyByte_first]; exact h)
  refine ⟨a, d, ?_⟩
  rw [h, applyByte_first]
  rfl

/-- R80, R81: a frame delivered whole over an uncontended view, whatever it latches. -/
theorem deliver_whole {w : Nat} (p : Byte) (v : BitVec (w + 1)) (s : State) (hf : s.faults = [])
    (hclk : s.adapter[3] = true ∨ p[3] = false) (hc : p[5] = true ∨ contended s.q = false) :
    deliver (encodeFrame p v).1 s = afterFrame p v s := by
  obtain ⟨e2, e3, e4, e5⟩ := rclkLow_pins p
  have hs0 : nextSr s.adapter (rclkLow p) s.sr = clearStage p s.sr := by
    rcases hclk with h | h <;> simp [nextSr, clearStage, e3, e4, h]
  let bits := clockBits (rclkLow p) (bitsDown v (w + 1))
  have hlast : bits.2[2] = false ∧ bits.2[3] = true ∧ bits.2[4] = p[4] ∧ bits.2[5] = p[5] := by
    have h1 : bitsDown v (w + 1) ≠ [] := by simp
    rw [show bits = clockBits (rclkLow p) _ from rfl, ← List.dropLast_append_getLast h1, clockBits_pins]
    exact clocked_pins _ _
  obtain ⟨l2, l3, l4, l5⟩ := hlast
  obtain ⟨g2, g3, g4, g5⟩ := rclkHigh_pins bits.2
  -- byte 0 and the clocked bits
  have hf0 := applyByte_first_faults hf hc
  have hstage : stageAfter (rclkLow p) (bitsDown v (w + 1)) (clearStage p s.sr) =
      stageAfter p (bitsDown v (w + 1)) s.sr := by
    simp only [stageAfter, e4, clearStage]
    split <;> rfl
  have hbody : deliver (encodeFrame p v).1 s = deliver [rclkHigh bits.2]
      ((lcdStep s.view (viewOf p s.q) s).setChain bits.2 (stageAfter p (bitsDown v (w + 1)) s.sr) s.q) := by
    show deliver (rclkLow p :: (bits.1 ++ [rclkHigh bits.2])) s = _
    rw [deliver_cons, if_pos hf0, applyByte_first, hs0]
    rw [applyByte_first] at hf0
    rw [hs0] at hf0
    rw [← hstage]
    exact deliver_clockBits (rclkLow p) _ _ _ hf0 rfl e2 (fun h => by simp [clearStage, e4.symm.trans h])
      (hc.imp (fun h => e5.trans h) id)
  -- the latch
  have hclear : clearStage (rclkHigh bits.2) (stageAfter p (bitsDown v (w + 1)) s.sr) =
      stageAfter p (bitsDown v (w + 1)) s.sr := by
    simp only [clearStage, g4, l4, stageAfter]
    split <;> rfl
  rw [hbody, deliver_single]
  simp only [applyByte, State.setChain_adapter, State.setChain_sr, State.setChain_q, State.setChain_view, nextSr,
    nextQ, g2, g3, l2, l3, hclear, setChain_setChain, Bool.not_true, Bool.not_false, Bool.true_and, Bool.false_and,
    Bool.false_eq_true, if_true, if_false, lcdStep_setChain, viewOf_congr (g5.trans l5), viewOf_congr l5]
  rfl

theorem take_frame_whole {w m : Nat} (p : Byte) (v : BitVec w) (hm : 4 * w + 2 ≤ m) :
    (encodeFrame p v).1.take m = (encodeFrame p v).1 :=
  List.take_of_length_le ((encodeFrame_length p v).trans_le hm)

/-! Contention. -/

/-- R96: outputs that stay driven and contended are recorded again at the next byte. -/
theorem lcdStep_contended_same {q : Word} {s : State} (hc : contended q = true) :
    lcdStep (some q) (some q) s = s.addFault .readContention := by
  have he : eOf q = true := by
    simp only [contended, Bool.and_eq_true] at hc
    tauto
  simp [lcdStep, hc, lcdEdge, he]

/-- R75: the stage after a byte that does not raise the clock. -/
theorem nextSr_unclocked {a b : Byte} (h : a[3] = true ∨ b[3] = false) (sr : Word) :
    nextSr a b sr = if b[4] then sr else 0 := by
  rcases h with h | h <;> simp [nextSr, clearStage, h]

/-- A byte that leaves driven, contended outputs driven and raises no edge. -/
theorem applyByte_contended {b : Byte} {s : State} (hf : s.faults = []) (ha : s.adapter[5] = false) (h5 : b[5] = false)
    (h2 : b[2] = false) (h3 : s.adapter[3] = true ∨ b[3] = false) (hc : contended s.q = true) :
    applyByte b s = { s with
      faults := [.readContention], adapter := b, sr := if b[4] then s.sr else 0 } := by
  have hq : nextQ s.adapter b s.sr s.q = s.q := by simp [nextQ, h2]
  have hv : s.view = some s.q := by simp [State.view, viewOf, ha]
  have hv' : viewOf b s.q = some s.q := by simp [viewOf, h5]
  rw [applyByte, hq, lcdStep_setChain, hv, hv', lcdStep_contended_same hc, nextSr_unclocked h3]
  simp [State.addFault, State.setChain, hf]

/-- R93, R95: outputs with E high that are driven again. -/
theorem lcdStep_drivenAgain {q : Word} (h : eOf q = true) (s : State) :
    lcdStep none (some q) s = { s with
      pulse := .dirty, log := s.log ++ List.replicate s.floats.head .anyTransfer, floats := s.floats.tail } := by
  simp only [lcdStep, h, if_true]
  rfl

theorem eOf_of_contended {q : Word} (h : contended q = true) : eOf q = true := (Bool.and_eq_true _ _ ▸ h).1

section
variable {w : Nat} {p : Byte} (v : BitVec (w + 1)) {s : State}

theorem take_frame_one : (encodeFrame p v).1.take 1 = [rclkLow p] := rfl

theorem take_frame_two : (encodeFrame p v).1.take 2 = [rclkLow p, srclkLow (rclkLow p)] := rfl

/-- R96: driven outputs that hold E and RW are recorded at byte 0. -/
theorem deliver_one_contended (hf : s.faults = []) (hp : p[5] = false) (hclk : s.adapter[3] = true ∨ p[3] = false)
    (hc : contended s.q = true) (ha : s.adapter[5] = false) :
    deliver ((encodeFrame p v).1.take 1) s = { s with
      faults := [.readContention], adapter := p &&& 0xFB, sr := if p[4] then s.sr else 0 } := by
  obtain ⟨e2, e3, e4, e5⟩ := rclkLow_pins p
  rw [take_frame_one, deliver_single, applyByte_contended hf ha (e5.trans hp) e2 (e3 ▸ hclk) hc, e4,
    (rclkLow_clocked p).2]

theorem secondByte_pins (p : Byte) :
    srclkLow (rclkLow p) = p &&& 0xF3 ∧ (srclkLow (rclkLow p))[2] = false ∧ (srclkLow (rclkLow p))[3] = false ∧
      (srclkLow (rclkLow p))[4] = p[4] ∧ (srclkLow (rclkLow p))[5] = p[5] := by
  revert p; decide

/-- R93, R96: floating outputs that hold E and RW are driven again by byte 0 and recorded at byte 1. -/
theorem deliver_two_contended (hf : s.faults = []) (hp : p[5] = false) (hclk : s.adapter[3] = true ∨ p[3] = false)
    (hc : contended s.q = true) (ha : s.adapter[5] = true) :
    (deliver ((encodeFrame p v).1.take 1) s).faults = [] ∧
    deliver ((encodeFrame p v).1.take 2) s = { s with
      faults := [.readContention], adapter := p &&& 0xF3, sr := if p[4] then s.sr else 0, pulse := .dirty,
      log := s.log ++ List.replicate s.floats.head .anyTransfer, floats := s.floats.tail } := by
  obtain ⟨e2, e3, e4, e5⟩ := rclkLow_pins p
  obtain ⟨f, f2, f3, f4, f5⟩ := secondByte_pins p
  have hv : s.view = none := by simp [State.view, viewOf, ha]
  have hv' : viewOf p s.q = some s.q := by simp [viewOf, hp]
  have h0 : applyByte (rclkLow p) s = { s with
      adapter := rclkLow p, sr := if p[4] then s.sr else 0, pulse := .dirty,
      log := s.log ++ List.replicate s.floats.head .anyTransfer, floats := s.floats.tail } := by
    rw [applyByte_first, hv, hv', lcdStep_drivenAgain (eOf_of_contended hc), nextSr_unclocked (e3 ▸ hclk), e4]
    rfl
  have hf0 : (applyByte (rclkLow p) s).faults = [] := by rw [h0]; exact hf
  have ha0 : (applyByte (rclkLow p) s).adapter[5] = false := by rw [applyByte_adapter]; exact e5.trans hp
  have hq0 : (applyByte (rclkLow p) s).q = s.q := by rw [h0]
  have h1 := applyByte_contended hf0 ha0 (f5.trans hp) f2 (.inr f3) (hq0 ▸ hc)
  rw [take_frame_one, take_frame_two, deliver_single, deliver_cons, if_pos hf0, deliver_single, h1, h0, f4, f]
  refine ⟨hf, ?_⟩
  cases p[4] <;> rfl

theorem rwOf_of_withoutE {a c : Word} (h : withoutE a = withoutE c) : rwOf a = rwOf c := by
  have h9 : ∀ x : Word, (withoutE x)[9] = x[9] := fun x => by simp [withoutE, eMask]
  rw [rwOf, rwOf, ← h9 a, ← h9 c, h]

/-- R91, R96: the pulse that a contended new view makes of driven, uncontended outputs. -/
theorem lcdStep_contended {q c : Word} (hf : s.faults = []) (hq : contended q = false) (hc : contended c = true) :
    lcdStep (some q) (some c) s = { s with
      faults := [.readContention],
      pulse := if eOf q = false ∧ withoutE q = withoutE c then .clean (withoutE c) else .dirty } := by
  have hec := eOf_of_contended hc
  have hadd : s.addFault .readContention = { s with faults := [.readContention] } := by simp [State.addFault, hf]
  by_cases he : eOf q = true
  · have hne : withoutE q ≠ withoutE c := fun h => by
      have h9 : rwOf q = rwOf c := rwOf_of_withoutE h
      simp [contended, he, hec, h9] at hq hc
      exact absurd hc (by simp [hq])
    simp [lcdStep, hc, lcdEdge, he, hec, hne, hadd, State.setPulse]
  · simp only [lcdStep, hc, lcdEdge, he, hec, hadd, if_true]
    simp [State.setPulse]

/-- R80: the last bit of a frame stands at bit 0 of a stage that is not held clear. -/
theorem stageAfter_bit0 {sr next : Word} (hn : stageAfter p (bitsDown v (w + 1)) sr = next) (h : next ≠ 0) :
    next[0] = v.getLsbD 0 := by
  have h4 : p[4] = true := by
    by_contra h4
    rw [stageAfter, if_neg h4] at hn
    exact h hn.symm
  rw [← BitVec.getLsbD_eq_getElem (by decide), ← hn, stageAfter, if_pos h4, foldl_shiftIn_bitsDown]
  simp

theorem ne_zero_of_contended {q : Word} (h : contended q = true) : q ≠ 0 := by
  rintro rfl
  rw [contended_zero] at h
  cases h

/-- R91, R96: a frame whose latch brings E and RW over outputs without them. -/
theorem deliver_whole_contended {next : Word} (hf : s.faults = []) (hp : p[5] = false)
    (hclk : s.adapter[3] = true ∨ p[3] = false) (hn : stageAfter p (bitsDown v (w + 1)) s.sr = next)
    (hq : contended s.q = false) (hc : contended next = true) :
    deliver (encodeFrame p v).1 s = { s with
      faults := [.readContention], adapter := framePins p next[0], sr := next, q := next,
      pulse := if eOf s.q = false ∧ withoutE s.q = withoutE next then .clean (withoutE next) else .dirty,
      log := s.log ++ (if s.adapter[5] then List.replicate s.floats.head .anyTransfer else []),
      floats := if s.adapter[5] then s.floats.tail else s.floats } := by
  have hv : ∀ q, viewOf p q = some q := fun q => by simp [viewOf, hp]
  rw [deliver_whole p v s hf hclk (.inr hq), afterFrame, hn, hv, hv, encodeFrame_pins,
    stageAfter_bit0 v hn (ne_zero_of_contended hc)]
  by_cases ha : s.adapter[5] = true
  · have h0 : s.view = none := by simp [State.view, viewOf, ha]
    have h1 : (lcdStep none (some s.q) s).faults = [] := hf
    rw [h0, lcdStep_contended h1 hq hc, if_pos ha, if_pos ha]
    rfl
  · have h0 : s.view = some s.q := by simp [State.view, viewOf, ha]
    rw [h0, lcdStep_same (some s.q) s (fun c hc => by cases hc; exact hq), lcdStep_contended hf hq hc, if_neg ha,
      if_neg ha, List.append_nil]
    rfl

/-- R96, R141: a frame of `bytes` bytes from the pins `p`, whose latch would bring `next`, records a fault: outputs that
hold E and RW do at byte 0, or at byte 1 where they floated, and the latch does where it brings E and RW. -/
def FaultsAfter (p : Byte) (next : Word) (bytes : Nat) (delivered : Nat → Bool) (s : State) : Prop :=
  p[5] = false ∧
    if contended s.q then delivered (if s.adapter[5] then 2 else 1) = true
    else contended next = true ∧ delivered bytes = true

/-- R141: no other way to a fault. -/
theorem faultsAfter_of_faults {m : Nat} {next : Word} (hf : s.faults = [])
    (hclk : s.adapter[3] = true ∨ p[3] = false) (hn : stageAfter p (bitsDown v (w + 1)) s.sr = next)
    (h : (deliver ((encodeFrame p v).1.take m) s).faults ≠ []) :
    FaultsAfter p next (4 * (w + 1) + 2) (fun n => decide (n ≤ m)) s := by
  have hm : 1 ≤ m := by
    by_contra h0
    have : m = 0 := by omega
    subst this
    exact h hf
  have hsplit : ∀ hc : p[5] = true ∨ contended s.q = false, 4 * (w + 1) + 2 ≤ m := fun hc => by
    by_contra hlt
    obtain ⟨k, rfl⟩ := Nat.exists_eq_add_of_le' hm
    obtain ⟨a, d, hd⟩ := deliver_cut (m := k) p v s hf (by omega) hc
    rw [hd] at h
    exact h ((lcdStep_faults_clear _ _ _ (viewOf_uncontended hc)).trans hf)
  have hwhole : ∀ hc : p[5] = true ∨ contended s.q = false ∧ contended next = false, False := fun hc => by
    rw [take_frame_whole p v (hsplit (hc.imp id (·.1))), deliver_whole p v s hf hclk (hc.imp id (·.1))] at h
    exact h (afterFrame_faults p v s hf (hn ▸ hc))
  have hp : p[5] = false := by
    by_contra hp
    exact hwhole (.inl (by simpa using hp))
  refine ⟨hp, ?_⟩
  split
  next hc =>
    split
    next ha =>
      refine decide_eq_true ?_
      by_contra hlt
      have : m = 1 := by omega
      subst this
      exact h (deliver_two_contended v hf hp hclk hc ha).1
    next => exact decide_eq_true hm
  next hc =>
    have hc : contended s.q = false := by simpa using hc
    refine ⟨?_, decide_eq_true (hsplit (.inr hc))⟩
    by_contra hnext
    exact hwhole (.inr ⟨hc, by simpa using hnext⟩)

end

/-! The transmission of a frame. -/

/-- R71, R141: a transmission whose first `n` bytes record a fault, and deliver it. -/
theorem sendFrame_faults {w n : Nat} (v : BitVec w) {s t : State} (hf : s.faults = [])
    (hd : s.transport.head.delivers n = true)
    (ht : deliver ((encodeFrame s.pins v).1.take n) (s.setTransport s.transport.tail) = t) (h : t.faults ≠ []) :
    sendFrame v s = .ended t := by
  have hmore : ∀ m, n ≤ m →
      unlessFaulted (deliver ((encodeFrame s.pins v).1.take m) (s.setTransport s.transport.tail)) =
        fun _ => .ended t := fun m hm => by
    rw [deliver_take_of_faults hm (by exact hf) (ht ▸ h), ht]
    funext k
    cases hk : t.faults with
    | nil => exact absurd hk h
    | cons => simp [unlessFaulted, hk]
  have hwhole := hmore (max n (encodeFrame s.pins v).1.length) (Nat.le_max_left _ _)
  rw [List.take_of_length_le (Nat.le_max_right _ _)] at hwhole
  rw [sendFrame]
  cases ha : s.transport.head with
  | ok => exact congrFun hwhole _
  | fail m p x => exact congrFun (hmore m (by simpa [ha] using hd)) _
  | never m => exact congrFun (hmore m (by simpa [ha] using hd)) _

theorem unlessFaulted_meets {G E : State → Prop} {u : State} {k : State → Run} (h : u.faults = [] → (k u).Meets G E)
    (hf : u.faults ≠ [] → E u) : (unlessFaulted u k).Meets G E := by
  unfold unlessFaulted
  split
  next h0 => exact h h0
  next h1 => exact hf (by simp [h1])

/-- R71, R96, R141: a transmission leaves a fault by `FaultsAfter` only. -/
theorem sendFrame_faultsAfter {w : Nat} (v : BitVec (w + 1)) {s : State} {next : Word} (hf : s.faults = [])
    (hclk : s.adapter[3] = true ∨ s.pins[3] = false) (hn : stageAfter s.pins (bitsDown v (w + 1)) s.sr = next) :
    (sendFrame v s).Meets (fun t => t.faults = []) fun t => t.faults ≠ [] →
      FaultsAfter s.pins next (4 * (w + 1) + 2) s.transport.head.delivers s := by
  have key : ∀ m, (deliver ((encodeFrame s.pins v).1.take m) (s.setTransport s.transport.tail)).faults ≠ [] →
      FaultsAfter s.pins next (4 * (w + 1) + 2) (fun n => decide (n ≤ m)) s := fun m h =>
    faultsAfter_of_faults v (s := s.setTransport s.transport.tail) hf hclk hn h
  rw [sendFrame]
  cases ha : s.transport.head with
  | ok =>
    refine unlessFaulted_meets (fun h => h) fun h _ => ?_
    have hlen := take_frame_whole s.pins v (m := 4 * (w + 1) + 2) (Nat.le_refl _)
    obtain ⟨hp, hk⟩ := key (4 * (w + 1) + 2) (hlen.symm ▸ h)
    refine ⟨hp, ?_⟩
    split at hk
    next hc => rw [if_pos hc]; rfl
    next hc => rw [if_neg hc]; exact ⟨hk.1, rfl⟩
  | fail m p x => exact unlessFaulted_meets (fun h hne => absurd h hne) fun h _ => key m h
  | never m => exact unlessFaulted_meets (fun h hne => absurd h hne) fun h _ => key m h

end Sys2Proof.Machine
end

section
/-! The first frame of an instruction and what can come after it (spec/40_shift_loader.md R72, R73;
spec/41_lcd_write_sequencer.md R86, R96; spec/60_exceptions.md R133, R134, R141). -/

namespace Sys2Proof.Machine

/-! Frames behind an answered one. -/

/-- The chain after an answered frame from the pins `p` that leaves `next`: nothing contends. -/
structure CalmAt (p : Byte) (next : Word) (t : State) : Prop where
  faults : t.faults = []
  adapter : t.adapter = t.pins
  clear : t.pins[4] = p[4]
  outputs : t.pins[5] = p[5]
  sr : t.sr = next
  q : t.q = next
  view : p[5] = true ∨ contended next = false

theorem not_faultsAfter {p : Byte} {next : Word} {n : Nat} {f : Nat → Bool} {s : State} (hu : s.Uncontended p next) :
    ¬ FaultsAfter p next n f s := by
  rintro ⟨hp, h⟩
  rcases hu with h5 | ⟨hq, hn⟩
  · rw [hp] at h5
    cases h5
  · rw [hq, hn] at h
    simp at h

/-- A frame under which nothing contends leaves a calm chain, or ends the operation without a fault. -/
theorem sendFrame_calm {w : Nat} (v : BitVec (w + 1)) {s : State} {next : Word} (hf : s.faults = [])
    (hclk : s.adapter[3] = true ∨ s.pins[3] = false) (hn : stageAfter s.pins (bitsDown v (w + 1)) s.sr = next)
    (hu : s.Uncontended s.pins next) : (sendFrame v s).Meets (CalmAt s.pins next) fun t => t.faults = [] := by
  have key := sendFrame_faultsAfter v hf hclk hn
  rcases sendFrame_cases v s with ⟨m, -, -, e⟩ | ⟨bs, -, e⟩ | ⟨hok, -, e⟩ | ⟨m, p, x, -, -, e⟩
  · rw [e] at key ⊢
    exact by_contra fun h => not_faultsAfter hu (key h)
  · rw [e] at key ⊢
    exact by_contra fun h => not_faultsAfter hu (key h)
  · obtain ⟨-, -, -, -, b4, b5, -, -⟩ := framePins_bits s.pins (v.getLsbD 0)
    rw [sendFrame_ok v s hf hok hclk (hn ▸ hu)]
    exact ⟨afterFrame_faults _ v _ hf (hn ▸ hu), encodeFrame_pins _ v, b4, b5, hn, hn, hu.imp id (·.2)⟩
  · rw [e] at key ⊢
    exact by_contra fun h => not_faultsAfter hu (key h)

/-- A part that follows the first frame of an instruction made of bus writes. -/
def CalmPart (x : Part) : Prop :=
  (∃ v : Word, contended v = false ∧ x = .send v) ∨ ∃ d c b, x = .setup (.display d c b)

theorem runParts_calm {p : Byte} (ps : List Part) (hps : ∀ x ∈ ps, CalmPart x) {next : Word} {t : State}
    (h : CalmAt p next t) : (runParts ps t).Meets (fun t => t.faults = []) fun t => t.faults = [] := by
  induction ps generalizing next t with
  | nil => exact h.faults
  | cons x ps ih =>
    obtain ⟨hx, hrest⟩ := List.forall_mem_cons.mp hps
    obtain ⟨v, hv, rfl⟩ | ⟨d, c, b, rfl⟩ := hx
    · have hnext : contended (if t.pins[4] then v else 0) = false := by split; exacts [hv, contended_zero]
      have hview := h.view
      rw [← h.outputs, ← h.q] at hview
      exact (sendFrame_calm v h.faults (synced_clock (.inl h.adapter) rfl) (stageAfter_word _ v _)
        (hview.imp id fun hq => ⟨hq, hnext⟩)).andThen fun u hu => ih hrest
          ⟨hu.faults, hu.adapter, hu.clear.trans h.clear, hu.outputs.trans h.outputs, hu.sr, hu.q,
            hu.view.imp (fun h5 => h.outputs.symm.trans h5) id⟩
    · exact ih hrest ⟨h.faults, h.adapter, h.clear, h.outputs, h.sr, h.q, h.view⟩

/-- R84, R85: no word of a bus write raises RW. -/
theorem uncontended_busWords (dp : DataHiPos) (rs : Bit) (b : Byte) :
    contended (busWord dp rs b) = false ∧ contended (busWord dp rs b ||| eMask) = false ∧
      contended (busWord dp rs b &&& ~~~eMask) = false := by
  obtain ⟨-, h9, h10⟩ := busWord_control dp rs b
  obtain ⟨w1, -, -, w4, -, -, w7, -⟩ := raised_view _ h9 h10
  exact ⟨contended_of_low w1, by simp [contended, w4], w7.symm ▸ contended_of_low w1⟩

theorem calmPart_of_mem_writesParts {dp : DataHiPos} {ws : List (Bit × Byte)} :
    ∀ x ∈ writesParts dp ws, CalmPart x := by
  intro x hx
  obtain ⟨⟨rs, b⟩, -, hx⟩ := List.mem_flatMap.mp hx
  obtain ⟨h1, h2, h3⟩ := uncontended_busWords dp rs b
  simp only [writeParts, List.mem_cons, List.not_mem_nil, or_false] at hx
  obtain rfl | rfl | rfl := hx
  · exact .inl ⟨_, h1, rfl⟩
  · exact .inl ⟨_, h2, rfl⟩
  · exact .inl ⟨_, h3, rfl⟩

/-- A side-channel frame behind an answered frame. -/
theorem runSide_calm {p p' : Byte} {next next' : Word} {x : Setup} {t : State} (h : CalmAt p next t)
    (hx : x.apply t = t.setPins p') (h3 : p'[3] = t.pins[3]) (hn : (if p'[4] then next <<< 8 else 0) = next')
    (hu : p'[5] = true ∨ contended next = false ∧ contended next' = false) :
    (runParts (sideParts x) t).Meets (CalmAt p' next') fun t => t.faults = [] := by
  rw [runParts_sideParts, hx]
  refine sendFrame_calm sideWord (s := t.setPins p') h.faults (synced_clock (s := t) (.inl h.adapter) h3) ?_ ?_
  · exact (stageAfter_sideWord p' t.sr).trans (h.sr.symm ▸ hn)
  · exact hu.imp id fun ⟨hq, hn⟩ => ⟨(congrArg contended h.q).trans hq, hn⟩

/-! The first frame. -/

/-- The instruction `i` sends its first frame from the pins `p`, its latch brings `next`, and the frames behind it
record no fault. -/
def StartsWith (i : Instr) (s : State) (p : Byte) (next : Word) : Prop :=
  ∃ (w : Nat) (v : BitVec (w + 1)) (rest : State → Run),
    firstFrameBytes i = 4 * (w + 1) + 2 ∧ p[3] = s.pins[3] ∧ stageAfter p (bitsDown v (w + 1)) s.sr = next ∧
    runParts (partsOf s i) s = (sendFrame v ((s.withRegistersOf i).setPins p)).andThen rest ∧
    ∀ t, CalmAt p next t → (rest t).Meets (fun t => t.faults = []) fun t => t.faults = []

theorem runParts_registerParts (i : Instr) (s : State) : runParts (registerParts i) s = .go (s.withRegistersOf i) := by
  cases i <;> rfl

/-- An instruction made of bus writes, with its registers set first. -/
theorem startsWith_writes {i : Instr} {s : State} {rs : Bit} {b : Byte} {ws : List (Bit × Byte)} {post : List Part}
    (hb : firstFrameBytes i = 66)
    (hp : partsOf s i = registerParts i ++ (writesParts s.params.dataHi ((rs, b) :: ws) ++ post))
    (hpost : ∀ x ∈ post, CalmPart x) :
    StartsWith i s s.pins (if s.pins[4] then busWord s.params.dataHi rs b else 0) := by
  let ps := [.send (busWord s.params.dataHi rs b ||| eMask), .send (busWord s.params.dataHi rs b &&& ~~~eMask)] ++
    (writesParts s.params.dataHi ws ++ post)
  have hps : ∀ x ∈ ps, CalmPart x := by
    obtain ⟨-, h2, h3⟩ := uncontended_busWords s.params.dataHi rs b
    simp only [ps, List.cons_append, List.nil_append, List.forall_mem_cons, List.forall_mem_append]
    exact ⟨.inl ⟨_, h2, rfl⟩, .inl ⟨_, h3, rfl⟩, calmPart_of_mem_writesParts, hpost⟩
  refine ⟨15, busWord s.params.dataHi rs b, runParts ps, hb, rfl, stageAfter_word _ _ _, ?_,
    fun t ht => runParts_calm ps hps ht⟩
  rw [hp, runParts_append, runParts_registerParts, andThen_go]
  rfl

/-- An instruction whose first frame is a side-channel frame. -/
theorem startsWith_side {i : Instr} {s : State} {x : Setup} {p : Byte} {next : Word} {post : List Part}
    (hb : firstFrameBytes i = 34) (hp : partsOf s i = sideParts x ++ post)
    (hx : x.apply s = (s.withRegistersOf i).setPins p) (h3 : p[3] = s.pins[3])
    (hn : (if p[4] then s.sr <<< 8 else 0) = next)
    (hpost : ∀ t, CalmAt p next t → (runParts post t).Meets (fun t => t.faults = []) fun t => t.faults = []) :
    StartsWith i s p next :=
  ⟨7, sideWord, runParts post, hb, h3, (stageAfter_sideWord p s.sr).trans hn,
    by rw [hp, runParts_append, runParts_sideParts, hx, sideFrame], hpost⟩

/-- An instruction that is one frame of a word. -/
theorem startsWith_send {i : Instr} {s : State} {w : Nat} {v : BitVec (w + 1)} {next : Word}
    (hb : firstFrameBytes i = 4 * (w + 1) + 2) (hp : partsOf s i = [.send v]) (hr : s.withRegistersOf i = s)
    (hn : stageAfter s.pins (bitsDown v (w + 1)) s.sr = next) : StartsWith i s s.pins next :=
  ⟨w, v, runParts [], hb, rfl, hn, by rw [hp, hr]; rfl, fun _ ht => ht.faults⟩

theorem firstFrame_of_writes {i : Instr} {s : State} (h : busWritesOf s i ≠ []) :
    firstFrame i s = firstBusFrame i s ∧ firstFrameBytes i = 66 := by
  cases i with
  | shiftOut8 | shiftOut16 | srClear | srOe | backlight | backlightFor | configure | sessionEnd => exact absurd rfl h
  | _ => exact ⟨rfl, rfl⟩

/-- The pins of the first frame of BACKLIGHT_FOR and of CONFIGURE. -/
theorem firstPins (p : Byte) : withBacklight p 1 = p ||| 0xC0 ∧ withClrN p 0 = p &&& 0xEF ∧ (p &&& 0xEF)[4] = false ∧
    (p &&& 0xEF)[3] = p[3] ∧ (p ||| 0xC0)[3] = p[3] ∧ (p ||| 0xC0)[4] = p[4] := by
  revert p; decide

/-- The off-frame of BACKLIGHT_FOR. -/
theorem offFrame_calm (seconds : Nat) {p : Byte} {sr : Word} {t : State}
    (h : CalmAt p (if p[4] then sr <<< 8 else 0) t) :
    (runParts (if seconds = 0 then [] else .setup (.wait seconds) :: sideParts (.light 0)) t).Meets
      (fun t => t.faults = []) fun t => t.faults = [] := by
  split
  · exact h.faults
  · rw [runParts_setup]
    let t' := (Setup.wait seconds).apply t
    obtain ⟨-, -, j3, j4, j5⟩ := drivenPins_bits t.pins 0
    exact (runSide_calm (t := t') (p' := withBacklight t.pins 0) (next' := 0)
      ⟨h.faults, h.adapter, h.clear, h.outputs, h.sr, h.q, h.view⟩ rfl j3 (moved_out sr p[4] _)
      (h.view.imp (fun h5 => j5.trans (h.outputs.trans h5)) fun hq => ⟨hq, contended_zero⟩)).mono
        (fun _ h => h.faults) fun _ h => h

/-- The second and the third frame of CONFIGURE. -/
theorem configureFrames_calm {p : Byte} {t : State} (h : CalmAt p 0 t) :
    (runParts (sideParts (.outputs 0) ++ sideParts (.clear 1)) t).Meets (fun t => t.faults = []) fun t =>
      t.faults = [] := by
  rw [runParts_append]
  refine (runSide_calm (p' := withOeN t.pins 0) (next' := 0) h rfl (drivenPins_bits t.pins 0).2.1.1 (moved_zero _)
    (.inr ⟨contended_zero, contended_zero⟩)).andThen fun u hu => ?_
  exact (runSide_calm (p' := withClrN u.pins 1) (next' := 0) hu rfl (drivenPins_bits u.pins 1).1.1 (moved_zero _)
    (.inr ⟨contended_zero, contended_zero⟩)).mono (fun _ h => h.faults) fun _ h => h

/-- Every instruction but SESSION_END starts with a frame. -/
theorem firstFrame_startsWith (i : Instr) (s : State) (hi : i ≠ .sessionEnd) :
    ∃ p next, firstFrame i s = some (p, next) ∧ StartsWith i s p next := by
  by_cases hw : busWritesOf s i ≠ []
  · obtain ⟨hframe, hbytes⟩ := firstFrame_of_writes hw
    by_cases ht : ∀ line text, i ≠ .writeText line text
    · have hparts := partsOf_of_writes hw ht
      obtain ⟨⟨rs, b⟩, ws, hws⟩ := List.exists_cons_of_ne_nil hw
      refine ⟨_, _, by rw [hframe, firstBusFrame, hws]; rfl,
        startsWith_writes (ws := ws) (post := []) hbytes ?_ (by simp)⟩
      rw [hparts, hws, List.append_nil]
    · obtain ⟨line, text, rfl⟩ : ∃ line text, i = .writeText line text := by simpa using ht
      refine ⟨_, _, rfl, startsWith_writes hbytes (partsOf_writeText line text s) ?_⟩
      exact List.forall_mem_cons.mpr ⟨.inr ⟨_, _, _, rfl⟩, calmPart_of_mem_writesParts⟩
  · obtain ⟨hlight, hclear, hclear4, hclear3, hlight3, hlight4⟩ := firstPins s.pins
    have done : ∀ p next t, CalmAt p next t → (runParts [] t).Meets (fun t => t.faults = []) fun t => t.faults = [] :=
      fun _ _ _ h => h.faults
    cases i with
    | shiftOut8 v =>
      exact ⟨_, _, rfl, startsWith_send (w := 7) rfl rfl rfl (by rw [stageAfter_byte, shiftLeft_or_byte])⟩
    | shiftOut16 v => exact ⟨_, _, rfl, startsWith_send (w := 15) rfl rfl rfl (stageAfter_word _ _ _)⟩
    | srClear level =>
      obtain ⟨⟨h3, h4, -⟩, -, -⟩ := drivenPins_bits s.pins level
      have hp := (drivenPins s.pins level).1
      rw [hp] at h3 h4
      exact ⟨_, _, rfl, startsWith_side (post := []) rfl rfl (congrArg s.setPins hp) h3
        (by rw [h4]; simp only [decide_eq_true_eq]) (done _ _)⟩
    | srOe level =>
      obtain ⟨-, ⟨h3, h4, -⟩, -⟩ := drivenPins_bits s.pins level
      have hp := (drivenPins s.pins level).2.1
      rw [hp] at h3 h4
      exact ⟨_, _, rfl, startsWith_side (post := []) rfl rfl (congrArg s.setPins hp) h3 (by rw [h4]) (done _ _)⟩
    | backlight on =>
      obtain ⟨-, -, ⟨h3, h4, -⟩⟩ := drivenPins_bits s.pins on
      have hp := (drivenPins s.pins on).2.2
      rw [hp] at h3 h4
      exact ⟨_, _, rfl, startsWith_side (post := []) rfl rfl (congrArg s.setPins hp) h3 (by rw [h4]) (done _ _)⟩
    | backlightFor seconds =>
      exact ⟨_, _, rfl, startsWith_side rfl (partsOf_backlightFor seconds s) (congrArg s.setPins hlight) hlight3
        (by rw [hlight4]) fun t h => offFrame_calm seconds (hlight4 ▸ h)⟩
    | configure =>
      exact ⟨_, _, rfl, startsWith_side (x := .clear 0) rfl (by rw [partsOf_configure, List.append_assoc])
        (congrArg s.setPins hclear) hclear3 (by rw [hclear4]; rfl) fun t h => configureFrames_calm h⟩
    | sessionEnd => exact absurd rfl hi
    | _ => exact absurd (List.cons_ne_nil _ _) hw

end Sys2Proof.Machine
end

section
/-! Operations whose first frame fails, is not answered or records READ_CONTENTION (spec/60_exceptions.md R133, R134,
R141; spec/41_lcd_write_sequencer.md R96). -/

namespace Sys2Proof.Machine

/-- R135, R136: a text that the caller may send. -/
theorem callerError_of_text {i : Instr} {s : State}
    (h : ∀ line t, i = .writeText line t → (line = 1 ∨ line = 2) ∧ (t.length ≤ 16 ∨ s.params.textPolicy ≠ .reject)) :
    callerError s i = none := by
  cases i with
  | writeText line t =>
    obtain ⟨hline, hlen⟩ := h line t rfl
    rw [callerError_writeText, if_neg fun hl => hline.elim hl.1 hl.2,
      if_neg fun hx => hlen.elim (fun h16 => absurd hx.1 (Nat.not_lt.mpr h16)) fun hp => hp hx.2]
  | _ => rfl

/-- An admitted instruction is its first frame and what follows it. -/
theorem exec_startsWith {i : Instr} {s : State} {p : Byte} {next : Word} (hl : s.Live) (ha : s.session ∈ admittedIn i)
    (hc : callerError s i = none) (h : StartsWith i s p next) :
    ∃ (w : Nat) (v : BitVec (w + 1)) (rest : State → Run), firstFrameBytes i = 4 * (w + 1) + 2 ∧ p[3] = s.pins[3] ∧
      stageAfter p (bitsDown v (w + 1)) s.sr = next ∧
      exec i s = ((sendFrame v ((s.withRegistersOf i).setPins p)).andThen rest).outcome := by
  obtain ⟨w, v, rest, hb, h3, hn, hrun, -⟩ := h
  refine ⟨w, v, fun t => (rest t).andThen fun t => .go (t.setSession (sessionAfter i t.session)), hb, h3, hn, ?_⟩
  rw [exec_admitted hl ha, bodyOf, hc]
  show ((runParts (partsOf s i) s).andThen _).outcome = _
  rw [hrun, andThen_assoc]

/-- Settles O39: no byte is delivered, so the failure is all there is. -/
theorem firstTransmissionFails : Obligations.FirstTransmissionFails := by
  intro i pins text s hl ha ht hi hx
  obtain ⟨p, next, -, hs⟩ := firstFrame_startsWith i s hi
  obtain ⟨w, v, rest, hb, -, -, hexec⟩ := exec_startsWith hl ha
    (callerError_of_text fun line t h => ⟨(hx line t h).1, .inl (hx line t h).2⟩) hs
  let u := (s.withRegistersOf i).setPins p
  have hsend : sendFrame v u =
      transmissionFailed (encodeFrame p v).1.length pins text (u.setTransport s.transport.tail) := by
    have hu : u.transport.head = .fail 0 pins text := ht
    have hf : (u.setTransport s.transport.tail).faults = [] := hl.1
    rw [sendFrame, hu]
    show unlessFaulted (u.setTransport s.transport.tail) _ = _
    rw [unlessFaulted, hf]
    rfl
  rw [hexec, hsend, encodeFrame_length, ← hb]
  rfl

/-- R16: the cache of an admitted instruction, where it matches. -/
theorem State.CacheMatches.synced {s : State} {i : Instr} (h : s.CacheMatches) (hl : s.Live)
    (ha : s.session ∈ admittedIn i) (hi : i ≠ .sessionEnd) : s.Synced := by
  obtain ⟨hf, -, hst⟩ := hl
  obtain ⟨hsame, hstart⟩ := h hf hst
  obtain ⟨hended, hfailed⟩ := session_of_admitted ha
  cases hse : s.session with
  | uninitialized => exact hstart hse
  | configured => exact .inl (hsame (.inl hse))
  | active => exact .inl (hsame (.inr hse))
  | failed => exact absurd (hfailed hse) hi
  | ended => exact absurd hse hended

theorem ne_sessionEnd_of_firstFrame {i : Instr} {s : State} {x : Byte × Word} (h : firstFrame i s = some x) :
    i ≠ .sessionEnd := by
  rintro rfl
  cases h

/-- The first frame as `firstFrame` states it. -/
theorem startsWith_of_firstFrame {i : Instr} {s : State} {p : Byte} {next : Word}
    (h : firstFrame i s = some (p, next)) :
    StartsWith i s p next := by
  obtain ⟨p', next', h', hs⟩ := firstFrame_startsWith i s (ne_sessionEnd_of_firstFrame h)
  cases h.symm.trans h'
  exact hs

/-- Settles O55: the first frame's delivered bytes record the fault, and it ends the operation. -/
theorem contentionIsRecordedOnEveryWay : Obligations.ContentionIsRecordedOnEveryWay := by
  intro i p next s hl hm ha hx hfirst h5 cut
  obtain ⟨w, v, rest, hb, h3, hn, hexec⟩ :=
    exec_startsWith hl ha (callerError_of_text hx) (startsWith_of_firstFrame hfirst)
  have hclk := synced_clock (hm.synced hl ha (ne_sessionEnd_of_firstFrame hfirst)) h3
  let u := ((s.withRegistersOf i).setPins p).setTransport s.transport.tail
  have hf : u.faults = [] := hl.1
  have hend : ∀ {n : Nat} {t : State}, s.transport.head.delivers n = true →
      deliver ((encodeFrame p v).1.take n) u = t → t.faults = [.readContention] → exec i s = .next t := by
    intro n t hd ht hft
    rw [hexec, sendFrame_faults v (s := (s.withRegistersOf i).setPins p) hf hd ht (by simp [hft])]
    rfl
  refine ⟨fun hc h5' hd => hend hd (deliver_one_contended v hf h5 hclk hc h5') rfl,
    fun hc h5' hd => hend hd (deliver_two_contended v hf h5 hclk hc h5').2 rfl, fun hq hc hd => ?_⟩
  refine hend hd ?_ rfl
  rw [hb, take_frame_whole p v (Nat.le_refl _)]
  exact deliver_whole_contended v hf h5 hclk hn hq hc

/-- Settles O17: the latch of ContentionIsRecordedOnEveryWay, over ready inputs. -/
theorem readContentionStopsTheMachine : Obligations.ReadContentionStopsTheMachine := by
  intro v s hl ha hr ht h10 h9
  obtain ⟨hsync, h4, h5, hq, -⟩ := hr
  have hfirst : firstFrame (.shiftOut16 v) s = some (s.pins, v) := by simp only [firstFrame, if_pos h4]
  obtain ⟨-, -, hlatch⟩ := contentionIsRecordedOnEveryWay (.shiftOut16 v) s.pins v s hl
    (fun _ _ => ⟨fun _ => hsync, fun _ => .inl hsync⟩) ha (fun _ _ h => by cases h) hfirst h5
  simp only [Draws.oks, Bool.and_true, beq_iff_eq] at ht
  refine ⟨_, hlatch (contended_of_low hq) ?_ (by rw [ht]; rfl), rfl, rfl, rfl, rfl, rfl, ?_, rfl, ?_⟩
  · simp [contended, eOf, rwOf, h10, h9]
  · show s.log ++ (if s.adapter[5] then _ else _) = s.log
    rw [if_neg (by simp only [hsync, h5]; decide), List.append_nil]
  · exact whenLive_faults (r := .readContention) (l := []) rfl _

/-- Where a transmission goes on it was answered `ok`. -/
theorem head_ok_of_sendFrame_go {w : Nat} {v : BitVec w} {s t : State} (h : sendFrame v s = .go t) :
    s.transport.head = .ok := by
  rcases sendFrame_cases v s with ⟨m, -, -, e⟩ | ⟨bs, -, e⟩ | ⟨hok, -, -⟩ | ⟨m, p, x, -, -, e⟩
  · cases e.symm.trans h
  · cases e.symm.trans h
  · exact hok
  · cases e.symm.trans h

/-- R96: a frame whose bytes are all delivered records a fault where something contends. -/
theorem faultsAfter_of_contended {p : Byte} {next : Word} {n : Nat} {s : State} (h : ¬ s.Uncontended p next) :
    FaultsAfter p next n (fun k => Answer.ok.delivers k) s := by
  obtain ⟨h5, hq⟩ := not_or.mp h
  refine ⟨by simpa using h5, ?_⟩
  split
  next => rfl
  next hc => exact ⟨by_contra fun hn => hq ⟨by simpa using hc, by simpa using hn⟩, rfl⟩

theorem Run.meets_of_forall {G E : State → Prop} (r : Run) (hg : ∀ t, G t) (he : ∀ t, E t) : r.Meets G E := by
  cases r with
  | go t => exact hg t
  | ended t => exact he t

/-- R96: an operation leaves a fault by its first frame only. -/
theorem runParts_faultsAfter {i : Instr} {s : State} {p : Byte} {next : Word} (h : StartsWith i s p next)
    (hf : s.faults = []) (hclk : s.adapter[3] = true ∨ p[3] = false) :
    let P := fun t : State => t.faults ≠ [] → FaultsAfter p next (firstFrameBytes i) s.transport.head.delivers s
    (runParts (partsOf s i) s).Meets P P := by
  intro P
  obtain ⟨w, v, rest, hb, h3, hn, hrun, hrest⟩ := h
  let u := (s.withRegistersOf i).setPins p
  have hu : u.faults = [] := hf
  have key := sendFrame_faultsAfter v (s := u) hu hclk hn
  rw [hrun]
  by_cases hcalm : u.Uncontended p next
  · refine ((sendFrame_calm v (s := u) hu hclk hn hcalm).mono (fun _ h => h) fun t h hne => absurd h hne).andThen ?_
    exact fun t ht => (hrest t ht).mono (fun u h hne => absurd h hne) fun u h hne => absurd h hne
  · cases hs : sendFrame v u with
    | ended t =>
      rw [hs] at key
      exact fun h => hb ▸ key h
    | go t =>
      have hok : s.transport.head = .ok := head_ok_of_sendFrame_go (s := u) hs
      have hP : ∀ t, P t := fun _ _ => hok ▸ faultsAfter_of_contended (s := s) hcalm
      exact (rest t).meets_of_forall hP hP

/-- Settles O57: a run that recorded a fault recorded it in its first frame. -/
theorem contentionHasNoOtherWay : Obligations.ContentionHasNoOtherWay := by
  intro i s t hm h hne
  obtain ⟨hl, ⟨-, rfl⟩ | ⟨ha, ⟨c, -, rfl⟩ | ⟨-, hr⟩⟩⟩ := exec_next h
  · exact absurd hl.1 hne
  · exact absurd hl.1 hne
  · have hi : i ≠ .sessionEnd := by
      rintro rfl
      obtain ⟨u, hu, rfl⟩ | hu := hr
      · cases hu; exact hne hl.1
      · cases hu
    obtain ⟨p, next, hfirst, hs⟩ := firstFrame_startsWith i s hi
    have h3 : p[3] = s.pins[3] := by obtain ⟨-, -, -, -, h3, -⟩ := hs; exact h3
    have key := runParts_faultsAfter hs hl.1 (synced_clock (hm.synced hl ha hi) h3)
    refine ⟨p, next, hfirst, ?_⟩
    obtain ⟨u, hu, rfl⟩ | hu := hr <;> rw [hu] at key <;> exact key hne

/-! Silence, and the first byte. -/

/-- R80, R81: the outputs after a frame that recorded no fault. -/
theorem deliver_frame_q {w : Nat} (v : BitVec (w + 1)) {p : Byte} {next : Word} {s : State} (hf : s.faults = [])
    (hclk : s.adapter[3] = true ∨ p[3] = false) (hn : stageAfter p (bitsDown v (w + 1)) s.sr = next)
    (h : (deliver (encodeFrame p v).1 s).faults = []) : (deliver (encodeFrame p v).1 s).q = next := by
  have hcalm : p[5] = true ∨ contended s.q = false := by
    by_contra hc
    obtain ⟨h5, hq⟩ := not_or.mp hc
    have h5 : p[5] = false := by simpa using h5
    have hq : contended s.q = true := by simpa using hq
    rw [← take_frame_whole p v (Nat.le_refl _)] at h
    by_cases ha : s.adapter[5] = true
    · have h2 := (deliver_two_contended v hf h5 hclk hq ha).2
      rw [deliver_take_of_faults (n := 2) (by omega) hf (by rw [h2]; exact List.cons_ne_nil _ _), h2] at h
      cases h
    · have h1 := deliver_one_contended v hf h5 hclk hq (by simpa using ha)
      rw [deliver_take_of_faults (n := 1) (by omega) hf (by rw [h1]; exact List.cons_ne_nil _ _), h1] at h
      cases h
  rw [deliver_whole p v s hf hclk hcalm, ← hn]
  rfl

/-- R134: a transmission that is never answered. -/
theorem sendFrame_never {w m : Nat} (v : BitVec w) {s : State} (ht : s.transport.head = .never m)
    (hst : s.stuck = false) :
    let d := deliver ((encodeFrame s.pins v).1.take m) (s.setTransport s.transport.tail)
    sendFrame v s = .ended { d with stuck := d.faults.isEmpty } := by
  intro d
  have hd : d.stuck = false := by
    obtain ⟨es, h⟩ := deliver_downstream ((encodeFrame s.pins v).1.take m) (s.setTransport s.transport.tail)
    rw [show d = _ from h]
    exact hst
  rw [sendFrame, ht]
  show unlessFaulted d _ = _
  unfold unlessFaulted
  split
  next hf =>
    have hb : d.faults.isEmpty = true := by rw [hf]; rfl
    rw [hb]
    rfl
  next hf =>
    have hb : d.faults.isEmpty = false := by rw [hf]; rfl
    rw [hb, ← hd]

/-- Settles O41: the delivered bytes of the first frame, and the mark. -/
theorem silentTransportStopsTheCore : Obligations.SilentTransportStopsTheCore := by
  intro i p next m s hl ha hx hfirst ht
  obtain ⟨w, v, rest, hb, h3, hn, hexec⟩ :=
    exec_startsWith hl ha (callerError_of_text hx) (startsWith_of_firstFrame hfirst)
  let u := ((s.withRegistersOf i).setPins p).setTransport s.transport.tail
  have hf : u.faults = [] := hl.1
  let d := deliver ((encodeFrame p v).1.take m) u
  obtain ⟨es, hd⟩ := deliver_downstream ((encodeFrame p v).1.take m) u
  have hsend := sendFrame_never v (s := (s.withRegistersOf i).setPins p) ht hl.2.2
  refine ⟨{ d with stuck := d.faults.isEmpty }, by rw [hexec, hsend]; rfl, ?_, ?_, ?_,
    fun hft => ⟨fun hm => ?_, fun hc hm => ?_, ?_⟩⟩
  · show { d with stuck := d.faults.isEmpty } = { u with
      adapter := d.adapter, sr := d.sr, q := d.q, pulse := d.pulse, log := d.log, faults := d.faults,
      stuck := d.faults.isEmpty, floats := d.floats }
    rw [show d = _ from hd]
  · exact (deliver_log _ u).txEvents_eq
  · rintro rfl
    have hb : u.faults.isEmpty = true := by rw [hf]; rfl
    show { u with stuck := u.faults.isEmpty } = _
    rw [hb]
    rfl
  · exact deliver_q_of_rclkLow _ u fun b hbyte => (take_frame_body p v (by omega) b hbyte).1
  · have hd' : d = deliver (encodeFrame p v).1 u := by
      show deliver _ u = _
      rw [take_frame_whole p v (hb ▸ hm)]
    exact (congrArg State.q hd').trans (deliver_frame_q v hf
      (synced_clock (s := s) (hc.synced hl ha (ne_sessionEnd_of_firstFrame hfirst)) h3) hn (hd' ▸ hft))
  · have hr : d.refused = none := (congrArg State.refused hd).trans hl.2.1
    have hb : d.faults.isEmpty = true := by rw [show d.faults = [] from hft]; rfl
    exact (stickyMarksEndTheRun { d with stuck := d.faults.isEmpty }).2.2 hft hr hb

/-- R71, R74: a failed transmission of one byte leaves that byte on the adapter, whether or not it records a fault. -/
theorem sendFrame_failOne {w : Nat} (v : BitVec w) {s : State} {pins : Byte} {text : List Byte}
    (ht : s.transport.head = .fail 1 pins text) : ∃ t, sendFrame v s = .ended t ∧ t.adapter = rclkLow s.pins := by
  let d := applyByte (rclkLow s.pins) (s.setTransport s.transport.tail)
  have hd : deliver ((encodeFrame s.pins v).1.take 1) (s.setTransport s.transport.tail) = d := deliver_single _ _
  have ha : d.adapter = rclkLow s.pins := applyByte_adapter _ _
  rw [sendFrame, ht]
  simp only [hd, unlessFaulted]
  split
  · exact ⟨_, rfl, ha⟩
  · exact ⟨_, rfl, ha⟩

/-- R14, R108 to R112, R116: CLR_N and OE_N of the first frame of a session. -/
theorem firstFrame_startPins {i : Instr} {s : State} {p : Byte} {next : Word} (hs : s.pins = 0x00)
    (ha : Session.uninitialized ∈ admittedIn i) (h : firstFrame i s = some (p, next)) :
    p[4] = decide (i = .srClear 1) ∧ p[5] = decide (i = .srOe 1) := by
  cases i with
  | srClear level | srOe level | backlight level =>
    simp only [firstFrame, hs, Option.some.injEq, Prod.mk.injEq] at h
    rw [← h.1]
    clear h ha
    revert level
    decide
  | backlightFor seconds =>
    simp only [firstFrame, hs, Option.some.injEq, Prod.mk.injEq] at h
    simp [← h.1]
  | configure =>
    simp only [firstFrame, hs, Option.some.injEq, Prod.mk.injEq] at h
    simp [← h.1]
  | sessionEnd => cases h
  | _ => simp [admittedIn] at ha

/-- Settles O50: the pins of a session start, and byte 0 of a frame, which has CLR_N and OE_N as the frame's pins
have. -/
theorem pinsStartAtZero : Obligations.PinsStartAtZero := by
  intro p a0 sr q transport floats s
  have hfirst : (rclkLow 0x00)[4] = false ∧ (rclkLow 0x00)[5] = false := by decide
  have hzero : (0x00 : Byte)[4] = false ∧ (0x00 : Byte)[5] = false := by decide
  refine ⟨rfl, hzero.1, hzero.2, rfl, fun w v => ?_, fun i pins text ha hi ht => ?_, fun p' t u h => ?_⟩
  · have hd : (deliver ((encodeFrame s.pins v).1.take 1) s).adapter = rclkLow 0x00 := by
      show (deliver [rclkLow s.pins] s).adapter = _
      rw [deliver_single, applyByte_adapter]
      rfl
    simp only [hd]
    exact hfirst
  · obtain ⟨p1, next, hframe, hstart⟩ := firstFrame_startsWith i s hi
    have hc : callerError s i = none := by
      cases i with
      | writeText line text => simp [admittedIn, s, State.start] at ha
      | _ => rfl
    obtain ⟨w, v, rest, -, -, -, hexec⟩ := exec_startsWith (start_live ..) ha hc hstart
    obtain ⟨t, hsend, hadapter⟩ := sendFrame_failOne v (s := (s.withRegistersOf i).setPins p1) ht
    obtain ⟨b4, b5⟩ := firstFrame_startPins (s := s) rfl ha hframe
    obtain ⟨-, -, e4, e5⟩ := rclkLow_pins p1
    refine ⟨t, by rw [hexec, hsend]; rfl, ?_, ?_⟩
    · simp only [hadapter]
      exact e4.trans b4
    · simp only [hadapter]
      exact e5.trans b5
  · obtain ⟨-, ho⟩ | ⟨-, -, ho⟩ | ⟨-, -, ho⟩ := openSession_cases true p' t
    · cases ho.symm.trans h
    · cases ho.symm.trans h
    · cases ho.symm.trans h
      rfl

end Sys2Proof.Machine
end

section
/-! A bus write that stops in one of its phases (spec/41_lcd_write_sequencer.md R85, R86, R91, R92;
spec/60_exceptions.md R133, R134). -/

namespace Sys2Proof.Machine

/-- R94: the cache is what the adapter drives, and the outputs are enabled and driven, with clear released. -/
abbrev State.Driven (s : State) : Prop :=
  s.faults = [] ∧ s.adapter = s.pins ∧ s.pins[4] = true ∧ s.pins[5] = false ∧ contended s.q = false

theorem driven_views {s : State} (h : s.Driven) : (∀ q, viewOf s.pins q = some q) ∧ s.view = some s.q := by
  obtain ⟨-, ha, -, h5, -⟩ := h
  exact ⟨fun q => by simp [viewOf, h5], by simp [State.view, viewOf, ha, h5]⟩

/-- Where an answered frame of the word `v` over driven outputs leads. -/
def afterWord (v : Word) (s : State) : State := { s with
  pins := framePins s.pins (v.getLsbD 0), adapter := framePins s.pins (v.getLsbD 0), sr := v, q := v,
  pulse := (lcdStep (some s.q) (some v) s).pulse, log := (lcdStep (some s.q) (some v) s).log ++ [.tx 66 true],
  transport := s.transport.tail }

theorem sendWord_driven {v : Word} {s : State} (h : s.Driven) (hv : contended v = false) (ht : s.transport.head = .ok) :
    sendFrame v s = .go (afterWord v s) := by
  obtain ⟨hview, hs⟩ := driven_views h
  obtain ⟨hf, ha, h4, h5, hq⟩ := h
  rw [sendFrame_synced (w := 15) v s hf ht ha v (by rw [stageAfter_word, if_pos h4]) (.inr ⟨hq, hv⟩), hs, hview]
  rfl

theorem afterWord_driven {v : Word} {s : State} (h : s.Driven) (hv : contended v = false) : (afterWord v s).Driven := by
  obtain ⟨hf, -, h4, h5, -⟩ := h
  obtain ⟨-, -, -, -, b4, b5, -, -⟩ := framePins_bits s.pins (v.getLsbD 0)
  exact ⟨hf, rfl, b4.trans h4, b5.trans h5, hv⟩

/-- R83: the first `m` bytes of a frame of the word `v` over driven outputs: the LCD sees the word with the
last byte. -/
theorem deliver_word_cut {v : Word} {s : State} (m : Nat) (h : s.Driven) :
    ∃ a d, deliver ((encodeFrame s.pins v).1.take m) s =
      if m < 66 then s.setChain a d s.q else (lcdStep (some s.q) (some v) s).setChain a d v := by
  obtain ⟨hview, hs⟩ := driven_views h
  obtain ⟨hf, ha, h4, h5, hq⟩ := h
  have hclk : s.adapter[3] = true ∨ s.pins[3] = false := synced_clock (.inl ha) rfl
  have hsame : lcdStep (some s.q) (some s.q) s = s := lcdStep_same _ _ fun c hc => by cases hc; exact hq
  by_cases hm : m < 66
  · simp only [if_pos hm]
    cases m with
    | zero => exact ⟨s.adapter, s.sr, rfl⟩
    | succ k =>
      obtain ⟨a, d, hd⟩ := deliver_cut (m := k) s.pins v s hf (by omega) (.inr hq)
      exact ⟨a, d, by rw [hd, hs, hview, hsame]⟩
  · simp only [if_neg hm]
    refine ⟨(encodeFrame s.pins v).2, v, ?_⟩
    rw [take_frame_whole s.pins v (by omega), deliver_whole (w := 15) s.pins v s hf hclk (.inr hq), afterFrame,
      stageAfter_word, if_pos h4, hs, hview, hview, hsame]

/-! The three phases over ready inputs. -/

theorem driven_of_ready {s : State} (hf : s.faults = []) (hr : s.LcdReady) : s.Driven := by
  obtain ⟨ha, h4, h5, hq, -⟩ := hr
  exact ⟨hf, ha, h4, h5, contended_of_low hq⟩

theorem execBusWrite_phases {rs : Bit} {b : Byte} {s : State} (hl : s.Live)
    (ha : s.session ∈ admittedIn (.busWrite rs b)) :
    let word := busWord s.params.dataHi rs b
    exec (.busWrite rs b) s =
      (((sendFrame word s).andThen (sendFrame (word ||| eMask))).andThen (sendFrame (word &&& ~~~eMask))).outcome := by
  rw [exec_plain hl ha rfl fun _ => rfl]
  exact congrArg Run.outcome (runParts_write _ rs b s rfl)

section
variable {word : Word} {s : State} (hf : s.faults = []) (hr : s.LcdReady) (h9 : word.getLsbD 9 = false)
  (h10 : word.getLsbD 10 = false)
include hf hr h9 h10

/-- R85: after the first phase the outputs hold the word. -/
theorem phase1_ok (ht : s.transport.head = .ok) :
    ∃ t, sendFrame word s = .go t ∧ t.Driven ∧ t = { s with
      pins := framePins s.pins word[0], adapter := framePins s.pins word[0], sr := word, q := word,
      log := s.log ++ [.tx 66 true], transport := s.transport.tail } := by
  obtain ⟨w1, -⟩ := raised_view word h9 h10
  have hd := driven_of_ready hf hr
  refine ⟨_, sendWord_driven hd (contended_of_low w1) ht, afterWord_driven hd (contended_of_low w1), ?_⟩
  obtain ⟨-, -, -, hq, -⟩ := hr
  rw [afterWord, lcdStep_low _ _ _ hq w1]
  rfl

/-- R91: after the second phase E is high over the word, and the pulse is clean. -/
theorem phase2_ok (ht1 : s.transport.head = .ok) (ht2 : s.transport.tail.head = .ok) :
    ∃ t, (sendFrame word s).andThen (sendFrame (word ||| eMask)) = .go t ∧ t.Driven ∧ t = { s with
      pins := framePins s.pins word[0], adapter := framePins s.pins word[0], sr := word ||| eMask, q := word ||| eMask,
      pulse := .clean word, log := s.log ++ [.tx 66 true, .tx 66 true], transport := s.transport.tail.tail } := by
  obtain ⟨w1, -, w3, w4, w5, w6, -, w8⟩ := raised_view word h9 h10
  have hc : contended (word ||| eMask) = false := by simp [contended, w4]
  obtain ⟨t, hgo, hd, rfl⟩ := phase1_ok hf hr h9 h10 ht1
  refine ⟨_, by rw [hgo, andThen_go, sendWord_driven hd hc ht2], afterWord_driven hd hc, ?_⟩
  have hpins : framePins (framePins s.pins word[0]) (word.getLsbD 0) = framePins s.pins word[0] := by
    rw [BitVec.getLsbD_eq_getElem (by decide)]
    generalize s.pins = p, word[0] = d
    revert p d
    decide
  rw [afterWord, lcdStep_rise _ _ _ w1 w3 w4 (w5.trans w6.symm), w6, w8, hpins]
  simp [State.setPulse]

end

/-- R71, R133: a failed transmission whose bytes record no fault. -/
theorem sendFrame_failed {w m : Nat} {v : BitVec w} {s d : State} {pins : Byte} {text : List Byte}
    (ht : s.transport.head = .fail m pins text)
    (hd : deliver ((encodeFrame s.pins v).1.take m) (s.setTransport s.transport.tail) = d) (hf : d.faults = []) :
    sendFrame v s = transmissionFailed (4 * w + 2) pins text d := by
  rw [sendFrame, ht]
  simp only [hd, unlessFaulted, hf, encodeFrame_length]

/-- R71, R134: a transmission that is never answered and whose bytes record no fault. -/
theorem sendFrame_stuck {w m : Nat} {v : BitVec w} {s d : State} (ht : s.transport.head = .never m)
    (hd : deliver ((encodeFrame s.pins v).1.take m) (s.setTransport s.transport.tail) = d) (hf : d.faults = []) :
    sendFrame v s = .ended d.setStuck := by
  rw [sendFrame, ht]
  simp only [hd, unlessFaulted, hf]

section
variable {word : Word} {s : State} (hd : s.Driven) (hq : s.q = word) (h9 : word.getLsbD 9 = false)
  (h10 : word.getLsbD 10 = false)
include hd hq h9 h10

/-- R91: the first `m` bytes of the second phase. -/
theorem deliver_raise (m : Nat) (tr : Draws Answer) :
    ∃ a d, deliver ((encodeFrame s.pins (word ||| eMask)).1.take m) (s.setTransport tr) = { s with
      adapter := a, sr := d, q := if m < 66 then word else word ||| eMask,
      pulse := if m < 66 then s.pulse else .clean word, transport := tr } := by
  obtain ⟨w1, -, w3, w4, w5, w6, -, -⟩ := raised_view word h9 h10
  obtain ⟨a, d, hcut⟩ := deliver_word_cut (v := word ||| eMask) (s := s.setTransport tr) m hd
  refine ⟨a, d, hcut.trans ?_⟩
  rw [State.setTransport_q, hq, lcdStep_rise _ _ _ w1 w3 w4 (w5.trans w6.symm), w6]
  by_cases hm : m < 66 <;> simp only [if_pos, hm, if_false] <;> rfl

end

/-- Settles O40: the delivered bytes of the second phase, over the outputs that the first left. -/
theorem enablePhaseFails : Obligations.EnablePhaseFails := by
  intro rs b m pins text s hl ha hr ht1 ht2 word
  obtain ⟨-, h9, h10⟩ := busWord_control s.params.dataHi rs b
  obtain ⟨-, -, -, -, hidle⟩ := id hr
  obtain ⟨s1, hgo, hd, hs1⟩ := phase1_ok hl.1 hr h9 h10 ht1
  obtain ⟨a, d, hcut⟩ := deliver_raise hd (congrArg State.q hs1) h9 h10 m s1.transport.tail
  have ht : s1.transport.head = .fail m pins text := by rw [hs1]; exact ht2
  refine ⟨_, by rw [execBusWrite_phases hl ha, hgo, andThen_go, sendFrame_failed ht hcut hd.1]; rfl, rfl, rfl, ?_,
    ?_, rfl, ?_⟩
  · rw [hs1]
    rfl
  · rw [hs1]
    exact List.append_assoc _ _ _
  · rw [hs1, hidle]
    rfl

/-- R84: a clean pulse over the bus word latches its RS and its byte. -/
theorem lcdStep_fall_busWord {rs : Bit} {b : Byte} {s : State} (hdp : s.params.dataHi.distinct = true)
    (hp : s.pulse = .clean (busWord s.params.dataHi rs b)) :
    lcdStep (some (busWord s.params.dataHi rs b ||| eMask)) (some (busWord s.params.dataHi rs b)) s =
      (s.logEvents [.transfer rs 0 b]).setPulse .idle := by
  obtain ⟨-, h9, h10⟩ := busWord_control s.params.dataHi rs b
  obtain ⟨w1, -, w3, -, w5, -, -, -⟩ := raised_view _ h9 h10
  have hrs := (busWord_lines s.params.dataHi rs b).1
  have hrw : (busWord s.params.dataHi rs b).extractLsb' 9 1 = 0 := by
    apply BitVec.eq_of_getLsbD_eq
    intro k hk
    obtain rfl : k = 0 := by omega
    simpa using h9
  rw [lcdStep_fall _ _ _ w3 w1 (w5.symm ▸ hp), w5, hrs, hrw, unmapWord_busWord _ _ _ hdp]

/-- R92: the first `m` bytes of the third phase. -/
theorem deliver_lower {rs : Bit} {b : Byte} {s : State} (hd : s.Driven) (hdp : s.params.dataHi.distinct = true)
    (hq : s.q = busWord s.params.dataHi rs b ||| eMask) (hp : s.pulse = .clean (busWord s.params.dataHi rs b)) (m : Nat)
    (tr : Draws Answer) :
    ∃ a d, deliver ((encodeFrame s.pins (busWord s.params.dataHi rs b)).1.take m) (s.setTransport tr) = { s with
      adapter := a, sr := d,
      q := if m < 66 then busWord s.params.dataHi rs b ||| eMask else busWord s.params.dataHi rs b,
      pulse := if m < 66 then .clean (busWord s.params.dataHi rs b) else .idle,
      log := s.log ++ (if m < 66 then [] else [.transfer rs 0 b]), transport := tr } := by
  obtain ⟨a, d, hcut⟩ := deliver_word_cut (v := busWord s.params.dataHi rs b) (s := s.setTransport tr) m hd
  have hfall : lcdStep (some (busWord s.params.dataHi rs b ||| eMask)) (some (busWord s.params.dataHi rs b))
      (s.setTransport tr) = ((s.setTransport tr).logEvents [.transfer rs 0 b]).setPulse .idle :=
    lcdStep_fall_busWord (s := s.setTransport tr) hdp hp
  refine ⟨a, d, hcut.trans ?_⟩
  rw [State.setTransport_q, hq, hfall]
  by_cases hm : m < 66
  · simp only [if_pos hm, List.append_nil, ← hp]
    rfl
  · simp only [if_neg hm]
    rfl

/-- Settles O58: the delivered bytes of the silent phase, over what the answered ones left. -/
theorem silentPhaseKeepsTheFramesBefore : Obligations.SilentPhaseKeepsTheFramesBefore := by
  intro rs b m s hl ha hr hdp word
  obtain ⟨-, h9, h10⟩ := busWord_control s.params.dataHi rs b
  obtain ⟨-, -, -, -, -, -, w7, -⟩ := raised_view _ h9 h10
  obtain ⟨-, -, -, -, hidle⟩ := id hr
  constructor
  · intro ht1 ht2
    simp only [Draws.oks, Bool.and_true, beq_iff_eq] at ht1
    obtain ⟨s1, hgo, hd, hs1⟩ := phase1_ok hl.1 hr h9 h10 ht1
    obtain ⟨a, d, hcut⟩ := deliver_raise hd (congrArg State.q hs1) h9 h10 m s1.transport.tail
    have ht : s1.transport.head = .never m := by rw [hs1]; exact ht2
    refine ⟨_, by rw [execBusWrite_phases hl ha, hgo, andThen_go, sendFrame_stuck ht hcut hd.1]; rfl, ?_⟩
    rw [hs1, hidle]
    rfl
  · intro ht1 ht2
    simp only [Draws.oks, Bool.and_true, Bool.and_eq_true, beq_iff_eq] at ht1
    obtain ⟨s2, hgo, hd, hs2⟩ := phase2_ok hl.1 hr h9 h10 ht1.1 ht1.2
    have hp : s2.params = s.params := by rw [hs2]
    obtain ⟨a, d, hcut⟩ := deliver_lower (rs := rs) (b := b) hd (hp ▸ hdp) (by rw [hp, hs2])
      (by rw [hp, hs2]) m s2.transport.tail
    have ht : s2.transport.head = .never m := by rw [hs2]; exact ht2
    rw [hp] at hcut
    refine ⟨_, by rw [execBusWrite_phases hl ha, hgo, andThen_go, w7, sendFrame_stuck ht hcut hd.1]; rfl, ?_⟩
    rw [hs2]
    rfl

end Sys2Proof.Machine
end

section
/-! Bus writes in every pin state (spec/41_lcd_write_sequencer.md R85, R86; spec/43_lcd_command_state_machine.md
section 5; spec/70_reset_and_hazards.md R156). -/

namespace Sys2Proof.Machine

/-- Where 16-bit frames lead, one after the other, from a cache that is what the adapter drives and with nothing in
contention. -/
structure AfterWords (vs : List Word) (s t : State) : Prop where
  faults : t.faults = []
  refused : t.refused = s.refused
  codes : t.codes = s.codes
  adapter : t.adapter = t.pins
  pins : t.pins &&& 0xF2 = s.pins &&& 0xF2
  view : t.Uncontended t.pins 0
  chain : ∀ v, vs.getLast? = some v → t.sr = t.q ∧ t.q = if s.pins[4] then v else 0
  txs : txEvents t.log = txEvents s.log ++ List.replicate vs.length (.tx 66 true)
  transport : t.transport = s.transport.skip vs.length
  quiet : s.pins[4] = false → eOf s.q = false → lcdEvents t.log = lcdEvents s.log ∧ eOf t.q = false

theorem pins_of_masked {a b : Byte} (h : a &&& 0xF2 = b &&& 0xF2) : a[4] = b[4] ∧ a[5] = b[5] := by
  have hbit : ∀ i, (a &&& 0xF2).getLsbD i = (b &&& 0xF2).getLsbD i := fun i => by rw [h]
  exact ⟨by simpa using hbit 4, by simpa using hbit 5⟩

theorem framePins_masked (p : Byte) (d : Bool) : framePins p d &&& 0xF2 = p &&& 0xF2 := by
  revert p d; decide

/-- R71, R80: where an answered frame of the word `v` leads. -/
def sentWord (v : Word) (s : State) : State :=
  let next : Word := if s.pins[4] then v else 0
  { s with
    pins := framePins s.pins (v.getLsbD 0), adapter := framePins s.pins (v.getLsbD 0), sr := next, q := next,
    pulse := (lcdStep s.view (viewOf s.pins next) s).pulse,
    log := (lcdStep s.view (viewOf s.pins next) s).log ++ [.tx 66 true], transport := s.transport.tail }

theorem txEvents_append (es fs : List Event) : txEvents (es ++ fs) = txEvents es ++ txEvents fs := List.filter_append ..

theorem lcdEvents_append (es fs : List Event) : lcdEvents (es ++ fs) = lcdEvents es ++ lcdEvents fs :=
  List.filter_append ..

theorem sentWord_txEvents (v : Word) (s : State) : txEvents (sentWord v s).log = txEvents s.log ++ [.tx 66 true] := by
  have h := (lcdStep_log s.view (viewOf s.pins (if s.pins[4] then v else 0)) s).txEvents_eq
  rw [← h]
  exact txEvents_append _ _

/-- R75, R90: with clear held and E low a frame shows the LCD nothing. -/
theorem sentWord_quiet {v : Word} {s : State} (ha : s.adapter = s.pins) (h4 : s.pins[4] = false)
    (hq : eOf s.q = false) :
    lcdEvents (sentWord v s).log = lcdEvents s.log ∧ eOf (sentWord v s).q = false := by
  have hnext : (if s.pins[4] then v else 0) = 0 := by rw [h4]; rfl
  have hstep : lcdStep s.view (viewOf s.pins 0) s = s := by
    rw [State.view, ha]
    unfold viewOf
    split
    · rfl
    · exact lcdStep_low _ _ _ hq eOf_zero
  have hs : (sentWord v s).q = 0 ∧ (sentWord v s).log = s.log ++ [.tx 66 true] := by
    simp only [sentWord, hnext, hstep, and_self]
  rw [hs.1, hs.2, lcdEvents_append]
  exact ⟨List.append_nil _, eOf_zero⟩

/-- One more frame, of a word that does not raise E and RW together. -/
theorem AfterWords.send {vs : List Word} {v : Word} {s t : State} (h : AfterWords vs s t) (hv : contended v = false)
    (ht : t.transport.head = .ok) :
    sendFrame v t = .go (sentWord v t) ∧ AfterWords (vs ++ [v]) s (sentWord v t) := by
  obtain ⟨h4, h5⟩ := pins_of_masked h.pins
  obtain ⟨-, -, -, -, -, b5, -, -⟩ := framePins_bits t.pins (v.getLsbD 0)
  have hnext : contended (if t.pins[4] then v else 0) = false := by split; exacts [hv, contended_zero]
  refine ⟨sendFrame_synced (w := 15) v t h.faults ht h.adapter _ (stageAfter_word _ _ _)
    (h.view.imp id fun hq => ⟨hq.1, hnext⟩), ?_⟩
  exact {
    faults := h.faults
    refused := h.refused
    codes := h.codes
    adapter := rfl
    pins := (framePins_masked _ _).trans h.pins
    view := h.view.imp (fun h => b5.trans h) fun _ => ⟨hnext, contended_zero⟩
    chain := fun x hx => by
      obtain rfl : v = x := by simpa using hx
      exact ⟨rfl, by rw [← h4]; rfl⟩
    txs := by
      rw [sentWord_txEvents, h.txs, List.append_assoc, List.length_append, List.length_singleton, List.replicate_succ']
    transport := by
      rw [List.length_append, List.length_singleton, skip_add, ← h.transport]
      rfl
    quiet := fun hc he => by
      obtain ⟨hl, hq⟩ := h.quiet hc he
      obtain ⟨kl, kq⟩ := sentWord_quiet (v := v) h.adapter (h4.trans hc) hq
      exact ⟨kl.trans hl, kq⟩ }

/-- Several more frames. -/
theorem AfterWords.sends {vs us : List Word} {s t : State} (h : AfterWords vs s t) (hus : ∀ v ∈ us, contended v = false)
    (ht : t.transport.oks us.length = true) :
    ∃ u, runParts (us.map fun v => .send v) t = .go u ∧ AfterWords (vs ++ us) s u := by
  induction us generalizing vs t with
  | nil => exact ⟨t, rfl, by rwa [List.append_nil]⟩
  | cons v us ih =>
    obtain ⟨hv, hus⟩ := List.forall_mem_cons.mp hus
    simp only [List.length_cons, Draws.oks, Bool.and_eq_true, beq_iff_eq] at ht
    obtain ⟨hgo, hk⟩ := h.send hv ht.1
    obtain ⟨u, hu, k⟩ := ih hk hus ht.2
    refine ⟨u, ?_, by rwa [List.append_assoc] at k⟩
    rw [List.map_cons, runParts_send, hgo, andThen_go, hu]

/-! The words of a list of bus writes. -/

/-- R85: the words of a bus write's three phases. -/
def busWords (dp : DataHiPos) (ws : List (Bit × Byte)) : List Word :=
  ws.flatMap fun x => [busWord dp x.1 x.2, busWord dp x.1 x.2 ||| eMask, busWord dp x.1 x.2 &&& ~~~eMask]

theorem writesParts_eq_sends (dp : DataHiPos) (ws : List (Bit × Byte)) :
    writesParts dp ws = (busWords dp ws).map fun v => .send v := by
  rw [busWords, List.map_flatMap]
  rfl

theorem busWords_append (dp : DataHiPos) (ws vs : List (Bit × Byte)) :
    busWords dp (ws ++ vs) = busWords dp ws ++ busWords dp vs := List.flatMap_append

theorem busWords_length (dp : DataHiPos) (ws : List (Bit × Byte)) : (busWords dp ws).length = 3 * ws.length := by
  induction ws with
  | nil => rfl
  | cons x ws ih =>
    rw [← List.singleton_append, busWords_append, List.length_append, ih, List.length_append, Nat.mul_add]
    rfl

theorem uncontended_of_mem_busWords {dp : DataHiPos} {ws : List (Bit × Byte)} :
    ∀ v ∈ busWords dp ws, contended v = false := by
  intro v hv
  obtain ⟨⟨rs, b⟩, -, hx⟩ := List.mem_flatMap.mp hv
  obtain ⟨h1, h2, h3⟩ := uncontended_busWords dp rs b
  simp only [List.mem_cons, List.not_mem_nil, or_false] at hx
  obtain rfl | rfl | rfl := hx
  exacts [h1, h2, h3]

theorem busWords_getLast? {dp : DataHiPos} {ws : List (Bit × Byte)} {x : Bit × Byte} (h : ws.getLast? = some x) :
    (busWords dp ws).getLast? = some (busWord dp x.1 x.2) := by
  obtain ⟨vs, rfl⟩ := List.getLast?_eq_some_iff.mp h
  obtain ⟨-, h9, h10⟩ := busWord_control dp x.1 x.2
  obtain ⟨-, -, -, -, -, -, w7, -⟩ := raised_view _ h9 h10
  rw [busWords_append, List.getLast?_append]
  exact congrArg some w7

/-- More bus writes. -/
theorem AfterWords.writes {dp : DataHiPos} {ws us : List (Bit × Byte)} {s t : State}
    (h : AfterWords (busWords dp ws) s t) (ht : t.transport.oks (3 * us.length) = true) :
    ∃ u, runParts (writesParts dp us) t = .go u ∧ AfterWords (busWords dp (ws ++ us)) s u := by
  rw [writesParts_eq_sends, busWords_append]
  exact h.sends uncontended_of_mem_busWords (by rwa [busWords_length])

/-- The parts of an instruction made of bus writes, with those answered. -/
theorem runWrites_afterWords {i : Instr} {s : State} (hf : s.faults = []) (ha : s.adapter = s.pins)
    (hw : busWritesOf s i ≠ []) (hx : ∀ line text, i = .writeText line text → text.length ≤ 16)
    (hu : s.Uncontended s.pins 0) (ht : s.transport.oks (3 * (busWritesOf s i).length) = true) :
    ∃ t, runParts (partsOf s i) s = .go t ∧ AfterWords (busWords s.params.dataHi (busWritesOf s i)) s t := by
  have start : AfterWords (busWords s.params.dataHi []) s s :=
    ⟨hf, rfl, rfl, ha, rfl, hu, by simp [busWords], by simp [busWords], rfl, fun _ hq => ⟨rfl, hq⟩⟩
  by_cases hi : ∀ line text, i ≠ .writeText line text
  · have hreg : AfterWords (busWords s.params.dataHi []) s (s.withRegistersOf i) := { start with }
    obtain ⟨t, hgo, h⟩ := hreg.writes (us := busWritesOf s i) ht
    refine ⟨t, ?_, h⟩
    rw [partsOf_of_writes hw hi, runParts_append, runParts_registerParts, andThen_go, hgo]
  · obtain ⟨line, text, rfl⟩ : ∃ line text, i = .writeText line text := by simpa using hi
    let ws : List (Bit × Byte) := (0, if line = 1 then line1AddrCmd else line2AddrCmd) :: text.map fun ch => (1, ch)
    let last : List (Bit × Byte) := [(0, displayOn s.regDisplay)]
    have hall : busWritesOf s (.writeText line text) = ws ++ last := rfl
    rw [hall, List.length_append, Nat.mul_add, oks_add, Bool.and_eq_true] at ht
    obtain ⟨t, hgo, h⟩ := start.writes (us := ws) ht.1
    have hset : AfterWords (busWords s.params.dataHi ws) s ((Setup.display .set .keep .keep).apply t) := { h with }
    obtain ⟨u, hgo', h'⟩ := hset.writes (us := last) (by
      show t.transport.oks _ = true
      rw [h.transport, List.nil_append, busWords_length]
      exact ht.2)
    refine ⟨u, ?_, h'⟩
    rw [partsOf_writeText, sentText_short (Nat.not_lt.mpr (hx line text rfl)), runParts_append, hgo, andThen_go,
      runParts_setup, hgo']

/-- Settles O26: the frames of the bus writes, from whatever pins. -/
theorem busWritesCompleteInEveryPinState : Obligations.BusWritesCompleteInEveryPinState := by
  intro i s hl hadm ha hw hx hu ht
  have hc := callerError_of_text (i := i) (s := s) fun line t h => ⟨(hx line t h).1, .inl (hx line t h).2⟩
  obtain ⟨t, hgo, h⟩ := runWrites_afterWords hl.1 ha hw (fun line t h => (hx line t h).2) hu ht
  obtain ⟨x, hlast⟩ := Option.ne_none_iff_exists'.mp (mt List.getLast?_eq_none_iff.mp hw)
  obtain ⟨hsr, hq⟩ := h.chain _ (busWords_getLast? hlast)
  have htxs := h.txs
  have htr := h.transport
  rw [busWords_length] at htxs htr
  refine ⟨(t.setSession (sessionAfter i t.session)).returnCode .ok, ?_, congrArg (· ++ [ReturnCode.ok]) h.codes,
    h.adapter, h.pins, hsr, ?_, htxs, htr, h.faults, h.refused.trans hl.2.1, fun h4 _ he => (h.quiet h4 he).1⟩
  · rw [exec_admitted hl hadm, bodyOf, hc]
    show ((runParts (partsOf s i) s).andThen _).outcome = _
    rw [hgo]
    rfl
  · rw [hlast]
    exact hq

end Sys2Proof.Machine
end
